-- ==== Sys2Proof/Word.lean ====
section
/-! DEFINITION. The word types of the block: bytes, device addresses and request words (rules R7, R11, R80). -/

namespace Sys2Proof

/-- A byte, 0 to 255 (rule R11). -/
abbrev Byte := BitVec 8

/-- A device address: `ADDR_BYTES` = 8 bytes held as a 64-bit value (rules R7, R58). -/
abbrev Addr := BitVec 64

/-- A request word (rule R80). -/
abbrev ReqWord := BitVec 72

/-- The temperature count, 16 bits, read as two's complement (rule R28). -/
abbrev Count := BitVec 16

end Sys2Proof
end

