-- ==== Sys2Proof/Syntax.lean ====
section
/-! DEFINITION. The instructions: one constructor per row of spec/opcode_table.json. A request carries every bit of its
word; a configuration byte as READ_TEMP reads it carries the whole byte. -/

namespace Sys2Proof

/-- The operands of a request word: every field but `op` (rule R80), those that the operation ignores among them. -/
structure ReqArgs where
  addrValid : Bool
  res       : BitVec 2
  busValid  : Bool
  outValid  : Bool
  addr      : Addr
  deriving DecidableEq, Repr

/-- The rows of the opcode table, in its order. -/
inductive Instr where
  | trigger (a : ReqArgs)                        -- R130
  | readTemp (a : ReqArgs)                       -- R153
  | setRes (a : ReqArgs)                         -- R185
  | reservedOp0 (a : ReqArgs)                    -- R83
  | reservedOp4 (a : ReqArgs)                    -- R83
  | reservedOp5 (a : ReqArgs)                    -- R83
  | reservedOp6 (a : ReqArgs)                    -- R83
  | reservedOp7 (a : ReqArgs)                    -- R83
  | skipRom                                      -- R115
  | matchRom                                     -- R116
  | convertT                                     -- R131
  | writeScratchpad                              -- R184
  | readScratchpad                               -- R152
  | cfg9Bit                                      -- R181
  | cfg10Bit                                     -- R181
  | cfg11Bit                                     -- R181
  | cfg12Bit                                     -- R181
  | cfgReadIdx0 (cfg : Byte)                     -- R146
  | cfgReadIdx1 (cfg : Byte)                     -- R146
  | cfgReadIdx2 (cfg : Byte)                     -- R146
  | cfgReadIdx3 (cfg : Byte)                     -- R146
  | cfgReadOutOfContract (cfg : Byte)            -- R145
  deriving DecidableEq, Repr

/-- Bits together with the place they are read at. The table's formats overlap (0x1F is a request with `op` 7, a
written configuration byte and a read one), so a decoder must know the place: the request port (R80), byte 0 of a
frame, the command byte of a frame (R84, R87), the third payload byte (R88) or the configuration byte of the
scratchpad just read (R89). -/
inductive Fetched where
  | request (w : ReqWord)
  | addressCommand (b : Byte)
  | functionCommand (b : Byte)
  | configWritten (b : Byte)
  | configRead (b : Byte)
  deriving DecidableEq, Repr

/-- Why bits are no instruction at their place. Requests and read configuration bytes always are one. -/
inductive DecodeError where
  /-- byte 0 of a frame is neither SKIP_ROM nor MATCH_ROM (rule R87) -/
  | notAddressCommand (b : Byte)
  /-- the command byte is none of 0x44, 0x4E, 0xBE (rule R93) -/
  | notFunctionCommand (b : Byte)
  /-- the written configuration byte is none of 0x1F, 0x3F, 0x5F, 0x7F (rule R90) -/
  | notConfiguration (b : Byte)
  deriving DecidableEq, Repr

end Sys2Proof
end

