-- ==== Sys2Proof/WellFormed.lean ====
section
/-! DEFINITION. Which instruction terms the encodings can spell. Field widths leave one thing to check: a
configuration byte as READ_TEMP reads it must have the index its constructor names (rules R144 to R146). -/

namespace Sys2Proof

/-- An instruction is well formed: a read configuration byte's bits 7:5 are the index of its row. -/
def Instr.wf : Instr → Bool
  | .cfgReadIdx0 cfg => cfg.extractLsb' 5 3 = 0
  | .cfgReadIdx1 cfg => cfg.extractLsb' 5 3 = 1
  | .cfgReadIdx2 cfg => cfg.extractLsb' 5 3 = 2
  | .cfgReadIdx3 cfg => cfg.extractLsb' 5 3 = 3
  | .cfgReadOutOfContract cfg => cfg.getLsbD 7
  | .trigger _ | .readTemp _ | .setRes _
  | .reservedOp0 _ | .reservedOp4 _ | .reservedOp5 _ | .reservedOp6 _ | .reservedOp7 _
  | .skipRom | .matchRom | .convertT | .writeScratchpad | .readScratchpad
  | .cfg9Bit | .cfg10Bit | .cfg11Bit | .cfg12Bit => true

end Sys2Proof
end

