-- ==== Sys2Proof/Decode.lean ====
section
/-! DEFINITION. The decoder, total on the bits at each place, rejecting by name, and the encoder written from the same
encoding tables (30_encoding.md R80 to R90). -/

namespace Sys2Proof

/-! ## The request word (R80) -/

/-- `w[2:0]`, the operation code. -/
def reqOp (w : ReqWord) : BitVec 3 := w.extractLsb' 0 3

/-- The other fields of the request word. -/
def reqArgs (w : ReqWord) : ReqArgs where
  addrValid := w.getLsbD 3
  res       := w.extractLsb' 4 2
  busValid  := w.getLsbD 6
  outValid  := w.getLsbD 7
  addr      := w.extractLsb' 8 64

/-- The request word with operation code `op` and operands `a`: each field at its place. -/
def reqWord (op : BitVec 3) (a : ReqArgs) : ReqWord :=
  op.setWidth 72 |||
  ((BitVec.ofBool a.addrValid).setWidth 72 <<< 3) |||
  (a.res.setWidth 72 <<< 4) |||
  ((BitVec.ofBool a.busValid).setWidth 72 <<< 6) |||
  ((BitVec.ofBool a.outValid).setWidth 72 <<< 7) |||
  (a.addr.setWidth 72 <<< 8)

/-- Dispatch on `op` (R82, R83, R98): every 72-bit word is a request. -/
def decodeRequest (w : ReqWord) : Instr :=
  if reqOp w = 0 then .reservedOp0 (reqArgs w)
  else if reqOp w = 1 then .trigger (reqArgs w)
  else if reqOp w = 2 then .readTemp (reqArgs w)
  else if reqOp w = 3 then .setRes (reqArgs w)
  else if reqOp w = 4 then .reservedOp4 (reqArgs w)
  else if reqOp w = 5 then .reservedOp5 (reqArgs w)
  else if reqOp w = 6 then .reservedOp6 (reqArgs w)
  else .reservedOp7 (reqArgs w)

/-! ## The wire constants (R84) and the written configuration bytes (R90) -/

/-- 0xCC, "broadcast to all devices". -/
def skipRomByte : Byte := 0xCC
/-- 0x55, "address one specific device". -/
def matchRomByte : Byte := 0x55
/-- 0x44, "start A/D conversion". -/
def convertTByte : Byte := 0x44
/-- 0x4E, "set TH/TL/config". -/
def writeScratchpadByte : Byte := 0x4E
/-- 0xBE, "read 9-byte register block". -/
def readScratchpadByte : Byte := 0xBE

/-- Byte 0 of a frame (R85 to R87). -/
def decodeAddressCommand (b : Byte) : Except DecodeError Instr :=
  if b = skipRomByte then .ok .skipRom
  else if b = matchRomByte then .ok .matchRom
  else .error (.notAddressCommand b)

/-- The command byte, the last of a frame (R84, R87). -/
def decodeFunctionCommand (b : Byte) : Except DecodeError Instr :=
  if b = convertTByte then .ok .convertT
  else if b = writeScratchpadByte then .ok .writeScratchpad
  else if b = readScratchpadByte then .ok .readScratchpad
  else .error (.notFunctionCommand b)

/-- The configuration byte of a payload (R88, R90). -/
def decodeConfigWritten (b : Byte) : Except DecodeError Instr :=
  if b = 0x1F then .ok .cfg9Bit
  else if b = 0x3F then .ok .cfg10Bit
  else if b = 0x5F then .ok .cfg11Bit
  else if b = 0x7F then .ok .cfg12Bit
  else .error (.notConfiguration b)

/-- The resolution index `configuration >> 5`, 0 to 7 (R144). -/
def cfgIndex (cfg : Byte) : BitVec 3 := cfg.extractLsb' 5 3

/-- The configuration byte of a scratchpad just read (R144 to R146): every byte is one of the five rows. -/
def decodeConfigRead (b : Byte) : Instr :=
  if cfgIndex b = 0 then .cfgReadIdx0 b
  else if cfgIndex b = 1 then .cfgReadIdx1 b
  else if cfgIndex b = 2 then .cfgReadIdx2 b
  else if cfgIndex b = 3 then .cfgReadIdx3 b
  else .cfgReadOutOfContract b

/-- The decoder: total, and where the bits are no instruction at their place it says which place. -/
def decode : Fetched → Except DecodeError Instr
  | .request w         => .ok (decodeRequest w)
  | .addressCommand b  => decodeAddressCommand b
  | .functionCommand b => decodeFunctionCommand b
  | .configWritten b   => decodeConfigWritten b
  | .configRead b      => .ok (decodeConfigRead b)

/-! ## The encoder -/

/-- The bits of an instruction and the place they stand at. -/
def encode : Instr → Fetched
  | .trigger a              => .request (reqWord 1 a)
  | .readTemp a             => .request (reqWord 2 a)
  | .setRes a               => .request (reqWord 3 a)
  | .reservedOp0 a          => .request (reqWord 0 a)
  | .reservedOp4 a          => .request (reqWord 4 a)
  | .reservedOp5 a          => .request (reqWord 5 a)
  | .reservedOp6 a          => .request (reqWord 6 a)
  | .reservedOp7 a          => .request (reqWord 7 a)
  | .skipRom                => .addressCommand skipRomByte
  | .matchRom               => .addressCommand matchRomByte
  | .convertT               => .functionCommand convertTByte
  | .writeScratchpad        => .functionCommand writeScratchpadByte
  | .readScratchpad         => .functionCommand readScratchpadByte
  | .cfg9Bit                => .configWritten 0x1F
  | .cfg10Bit               => .configWritten 0x3F
  | .cfg11Bit               => .configWritten 0x5F
  | .cfg12Bit               => .configWritten 0x7F
  | .cfgReadIdx0 cfg        => .configRead cfg
  | .cfgReadIdx1 cfg        => .configRead cfg
  | .cfgReadIdx2 cfg        => .configRead cfg
  | .cfgReadIdx3 cfg        => .configRead cfg
  | .cfgReadOutOfContract cfg => .configRead cfg

/-! ## The host's numbering of the table -/

/-- The place at which `nbits` bits `w` of the opcode table are read. DESIGN CHOICE (log 17): the table gives a request
row three bits, so its words and the 8-bit rows overlap. More than 8 bits are a request. Of the 8-bit words the five
wire commands and the four written configuration bytes are read as those, a word below 8 as the request with that `op`
and all operands zero, and any other as a configuration byte just read. -/
def tableFetched (nbits w : Nat) : Fetched :=
  let v := w % 2 ^ nbits
  let b := BitVec.ofNat 8 v
  if 8 < nbits then .request (BitVec.ofNat 72 v)
  else if b = skipRomByte ∨ b = matchRomByte then .addressCommand b
  else if b = convertTByte ∨ b = writeScratchpadByte ∨ b = readScratchpadByte then .functionCommand b
  else if b = 0x1F ∨ b = 0x3F ∨ b = 0x5F ∨ b = 0x7F then .configWritten b
  else if v < 8 then .request (BitVec.ofNat 72 v)
  else .configRead b

/-- The instruction the decoder reads from an opcode-table word. -/
def decodeTableWord (nbits w : Nat) : Option Instr :=
  match decode (tableFetched nbits w) with
  | .ok i    => some i
  | .error _ => none

end Sys2Proof
end

