-- ==== Sys2Proof/Config.lean ====
section
/-! DEFINITION. What the spec leaves open: the type that `core` takes for a transport error (rule R9) and the free values (rules R52, R131
and R249). All are constants without a body, so nothing can be proved of them. -/

namespace Sys2Proof

/-- PARAMETER (rule R9; log 1): which tags, besides 0, are error values of the transport. -/
opaque Config.isErrTag : Nat → Bool

/-- The type that the machine which `core` runs takes for rule R9's parameter `XportErr`. DESIGN CHOICE (log 1): the host's
interface wants one type of states. `State` and every operation and meaning take the type of error values as an argument,
of which nothing is assumed, and do not name this one. How many values this one has is left to `Config.isErrTag`. -/
structure XportErr where
  tag     : Nat
  isError : tag = 0 ∨ Config.isErrTag tag = true
  deriving DecidableEq, Repr

/-- The error value that is known to exist; only tests name it. -/
def XportErr.known : XportErr := ⟨0, .inl rfl⟩

/-- FREE VALUE (log 9): how many bytes of the `n`-th failed or abandoned write reached the wire, before it is cut
off at the length of the write (rule R52: "A model draws that prefix length freely"). -/
opaque Config.sentLen : Nat → Nat

/-- FREE VALUE (log 16): the count that the `n`-th conversion of the device with address `a` leaves in its `temp_lsb` and
`temp_msb` (rule R131: "The conversion result appears later"; no rule gives its value). -/
opaque Config.conversionResult : Addr → Nat → Count

/-- FREE VALUE (log 10): what a device register holds after the `n`-th payload write that failed or was abandoned.
The second argument tells the registers of the devices apart (rule R249: "a state the source does not describe"). -/
opaque Config.freeByte : Nat → Nat → Byte

end Sys2Proof
end

