-- ==== Sys2Proof/Machine/State.lean ====
section
/-! DEFINITION. The state as plain data: the registers of the block (10_state.md), its ports, and what lies behind its
transport as far as the spec states it (the answers to come and the devices on the bus). -/

namespace Sys2Proof.Machine

/-- PHASE, the sequencer's position (R21); its numbers are `Phase.code`. -/
inductive Phase where
  | idle | reset | sendFrame | sendPayload | readSp | decode
  deriving DecidableEq, Repr

/-- STATUS, the completion code of the last operation that ended (R26); its numbers are `Status.code`. -/
inductive Status where
  | ok | invalidArgument | notFound | invalidCrc | transport | configRange | illegalOp
  /-- NONE: no operation has ended since reset -/
  | none
  deriving DecidableEq, Repr

/-- The 9-byte scratchpad record, in the order of its offsets 0 to 8 (R89, R143). -/
structure Scratchpad where
  tempLsb       : Byte
  tempMsb       : Byte
  th            : Byte
  tl            : Byte
  configuration : Byte
  reserved5     : Byte
  reserved6     : Byte
  reserved7     : Byte
  crc           : Byte
  deriving DecidableEq, Repr

/-- The 3-byte write-scratchpad payload, in the order of its positions (R88). -/
structure Payload where
  th            : Byte
  tl            : Byte
  configuration : Byte
  deriving DecidableEq, Repr

/-- What the transport answers to `BusReset()` (R50, R51). -/
inductive ResetAnswer (E : Type := XportErr) where
  | present | absent | err (e : E)
  deriving DecidableEq, Repr

/-- What the transport answers to `BusWrite(s)` (R50, R52). -/
inductive WriteAnswer (E : Type := XportErr) where
  | ok | err (e : E)
  deriving DecidableEq, Repr

/-- What the transport answers to `BusRead(9)`: a successful read is never short (R50, R53). -/
inductive ReadAnswer (E : Type := XportErr) where
  | bytes (s : Scratchpad) | err (e : E)
  deriving DecidableEq, Repr

/-- The transport's answers to come, one list per kind of transaction, in the order the transactions ask for them.
Every answer is the transport's choice (R54); an empty list is an answer that has not come yet. -/
structure Transport (E : Type := XportErr) where
  resets : List (ResetAnswer E)
  writes : List (WriteAnswer E)
  reads  : List (ReadAnswer E)
  deriving DecidableEq, Repr

/-- The events of the observable trace (R57). -/
inductive Event (E : Type := XportErr) where
  | reset (a : ResetAnswer E)
  | write (s : List Byte) (a : WriteAnswer E)
  | read (n : Nat) (a : ReadAnswer E)
  | done (st : Status)
  deriving DecidableEq, Repr

/-- Which devices the command byte of the current frame addresses (R115, R116, R216). -/
inductive Selection where
  | nobody | everybody | device (a : Addr)
  deriving DecidableEq, Repr

/-- How far the devices are in what they are receiving: the position of the next byte (R85, R86, R88). -/
inductive BusPos where
  /-- no frame is open: no bus reset yet, or the frame and its payload are complete -/
  | closed
  /-- byte 0 of a frame comes next -/
  | addressCommand
  /-- an address byte comes next; `got` are those received, the first received first -/
  | address (got : List Byte)
  /-- the command byte comes next -/
  | functionCommand
  /-- the threshold-high byte of a payload comes next -/
  | th
  /-- the threshold-low byte comes next -/
  | tl (th : Byte)
  /-- the configuration byte comes next -/
  | configuration (th tl : Byte)
  /-- the addressed devices supply the 9 bytes of a read (R152), and have supplied them (log 27) -/
  | supplying
  deriving DecidableEq, Repr

/-- A device on the bus (R216): its 64-bit address, its register block (R35 to R37), and how many conversions it has begun
(R131). What a read returns is the transport's free choice all the same (R53; log 11). -/
structure Device where
  addr        : Addr
  registers   : Scratchpad
  conversions : Nat
  deriving DecidableEq, Repr

/-- The device side of the bus. `line` holds bytes that stand on the wire and that the devices have still to take: the
model's own field (log 13). The bytes of the block's own transactions are taken within the transaction. -/
structure BusSide where
  pos       : BusPos
  selection : Selection
  devices   : List Device
  line      : List Byte
  deriving DecidableEq, Repr

/-- The machine. The registers of the block come first (R20, R24), then its ports, then the surroundings. `E` is the type
of a transport error value, of which nothing is assumed (R9): every operation and every meaning is written for all `E`.
The instance that `core` runs takes `XportErr` for it (log 1). -/
structure State (E : Type := XportErr) where
  /-- PHASE (R21) -/
  phase     : Phase
  /-- REQ (R32) -/
  req       : ReqWord
  /-- FRAME (R24) -/
  frame     : List Byte
  /-- FRAME_LEN (R24) -/
  frameLen  : Nat
  /-- PAYLOAD (R33) -/
  payload   : Payload
  /-- SP (R25) -/
  sp        : Scratchpad
  /-- STATUS (R26) -/
  status    : Status
  /-- XERR (R27) -/
  xerr      : Option E
  /-- TEMP_Q4 (R28, R29) -/
  tempQ4    : Option Count
  /-- requests presented and not yet taken, oldest first (R98, R217) -/
  requests  : List ReqWord
  /-- the platform's block-reset input (R240) -/
  resetLine : Bool
  /-- the transport's answers to come (R54) -/
  transport : Transport E
  /-- the event trace, oldest first (R57) -/
  trace     : List (Event E)
  /-- the devices' side of the bus -/
  bus       : BusSide
  /-- how many free values have been drawn: the model's own field (log 9, log 10) -/
  draws     : Nat
  deriving DecidableEq, Repr

/-- What stops the machine. -/
inductive Fault where
  /-- Raised by a step that finds a byte on the wire while no frame is open: the spec gives such a byte no meaning (R93,
  R111). The block's own transactions never cause it. Safe: the machine stops. -/
  | byteOutOfPlace
  deriving DecidableEq, Repr

/-- What the machine gives no meaning. -/
inductive Refusal where
  /-- Raised by an arm of `exec` whose instruction has no meaning yet. Safe. -/
  | notModelled (mnemonic : String)
  /-- Raised by a step that finds, at a command position of the wire, a byte that is no command of that position: at byte 0
  one that is neither SKIP_ROM nor MATCH_ROM, at the command byte one that is none of 0x44, 0x4E, 0xBE. No rule says
  what a device does with it (R87, R93). The block's own transactions never cause it. Safe: the machine stops. -/
  | wireCommandNotStated (b : Byte)
  deriving DecidableEq, Repr

/-- The machine right after a block reset (R40): PHASE is IDLE, STATUS is NONE, XERR and TEMP_Q4 hold no value.
DESIGN CHOICE (log 3, 4): REQ, FRAME, FRAME_LEN, PAYLOAD and SP, to which R40 gives no value, are zero or empty; they
are written before they are read. DESIGN CHOICE (log 5, 6, 8, 11, 12, 13): nothing is presented, nothing has been
answered, nothing is on the wire and no device is listed. DESIGN CHOICE (log 9): no free value has been drawn. -/
def State.resetOf (E : Type) : State E where
  phase     := .idle
  req       := 0
  frame     := []
  frameLen  := 0
  payload   := ⟨0, 0, 0⟩
  sp        := ⟨0, 0, 0, 0, 0, 0, 0, 0, 0⟩
  status    := .none
  xerr      := none
  tempQ4    := none
  requests  := []
  resetLine := false
  transport := ⟨[], [], []⟩
  trace     := []
  bus       := ⟨.closed, .nobody, [], []⟩
  draws     := 0

/-- The machine that `core` runs, right after a block reset. -/
def State.reset : State := State.resetOf XportErr

end Sys2Proof.Machine
end

