-- ==== Sys2Proof/Machine/Operands.lean ====
section
/-! DEFINITION. The combinational functions of the three units: the frame builder (40), the scratchpad codec (42) and
the resolution configurator (43), and the operand forms of a request (R91). -/

namespace Sys2Proof.Machine

/-! ## Frame builder -/

/-- Address byte `i`, transmitted `i`-th: `addr[8i+7:8i]` (R58). -/
def addrByte (a : Addr) (i : Nat) : Byte := a.extractLsb' (8 * i) 8

/-- The 8 address bytes in the order they are transmitted (R58, R86). -/
def addrBytes (a : Addr) : List Byte :=
  [addrByte a 0, addrByte a 1, addrByte a 2, addrByte a 3,
   addrByte a 4, addrByte a 5, addrByte a 6, addrByte a 7]

/-- The address a device reads from address bytes, the first one received being the least significant (R58). -/
def addrOfBytes : List Byte → Addr
  | []      => 0
  | b :: bs => (addrOfBytes bs <<< 8) ||| b.setWidth 64

/-- The two forms of a target (R110). -/
inductive Target where
  | broadcast
  | addressed (a : Addr)
  deriving DecidableEq, Repr

/-- `target(REQ)` (R110, R130). -/
def targetOf (a : ReqArgs) : Target := if a.addrValid then .addressed a.addr else .broadcast

/-- BUILD_FRAME, the bytes (R110, R85, R86); their number is the frame's length. -/
def buildFrame (t : Target) (cmd : Byte) : List Byte :=
  match t with
  | .broadcast   => [skipRomByte, cmd]
  | .addressed a => matchRomByte :: (addrBytes a ++ [cmd])

/-- The command byte an operation sends: TRIGGER 0x44, READ_TEMP 0xBE, SET_RES 0x4E (R84, R91). A reserved `op` has
none. -/
def commandOf (op : BitVec 3) : Option Byte :=
  if op = 1 then some convertTByte
  else if op = 2 then some readScratchpadByte
  else if op = 3 then some writeScratchpadByte
  else none

/-! ## CRC-8 validator -/

/-- One bit of the CRC: shift right, and add the reflected polynomial 0x8C if a 1 falls out (R140). PRESUMED by the
spec (I1, D13; log 18): the bit order and the reflection. -/
def crcBit (c : Byte) : Byte := if c.getLsbD 0 then (c >>> 1) ^^^ 0x8C else c >>> 1

/-- `n` bits of the CRC. -/
def crcBits : Nat → Byte → Byte
  | 0, c     => c
  | n + 1, c => crcBits n (crcBit c)

/-- One byte of the CRC. -/
def crcByte (c b : Byte) : Byte := crcBits 8 (c ^^^ b)

/-- `crc8`: seed 0, bytes in index order, no final inversion (R140). -/
def crc8 (s : List Byte) : Byte := s.foldl crcByte 0

/-- The first 8 bytes of a record, `sp[0..8]`. -/
def Scratchpad.firstEight (sp : Scratchpad) : List Byte :=
  [sp.tempLsb, sp.tempMsb, sp.th, sp.tl, sp.configuration, sp.reserved5, sp.reserved6, sp.reserved7]

/-- The 9 bytes of a record in the order they are received (R89). -/
def Scratchpad.bytes (sp : Scratchpad) : List Byte := sp.firstEight ++ [sp.crc]

/-- A record with the CRC that its first 8 bytes have: `crc` is "CRC-8 over the preceding 8 bytes" (R89). -/
def Scratchpad.withCrc (sp : Scratchpad) : Scratchpad := { sp with crc := crc8 sp.firstEight }

/-- CRC_OK (R142). -/
def crcOk (sp : Scratchpad) : Bool := crc8 sp.firstEight = sp.crc

/-! ## Field extractor and temperature converter -/

/-- The LSB mask table, indexed 0 to 3; it has no entry 4 to 7 (R146, R145). -/
def lsbMask (idx : BitVec 3) : Option Byte :=
  if idx = 0 then some 0x07
  else if idx = 1 then some 0x03
  else if idx = 2 then some 0x01
  else if idx = 3 then some 0x00
  else none

/-- `masked_lsb` (R147). -/
def maskedLsb (mask lsb : Byte) : Byte := lsb &&& ~~~mask

/-- The count `{temp_msb, masked_lsb}` (R148); its `toInt` is the spec's `sext_16`. -/
def countOf (mask : Byte) (sp : Scratchpad) : Count := sp.tempMsb ++ maskedLsb mask sp.tempLsb

/-- What DECODE can answer (R151). -/
inductive Decoded where
  | temp (count : Count)
  | badCrc
  | badCfg
  deriving DecidableEq, Repr

/-- The conversion with a given resolution index, after the CRC check (R145 to R148, R155). -/
def decodeWithIndex (idx : BitVec 3) (sp : Scratchpad) : Decoded :=
  if crcOk sp then
    match lsbMask idx with
    | some mask => .temp (countOf mask sp)
    | none      => .badCfg
  else .badCrc

/-- DECODE (R151): the index is the one of the record's own configuration byte (R144). -/
def decodeRecord (sp : Scratchpad) : Decoded := decodeWithIndex (cfgIndex sp.configuration) sp

/-! ## Resolution configurator -/

/-- PACK_CFG (R181): `(zext_8(res) << 5) | 0x1F`. -/
def packCfg (res : BitVec 2) : Byte := (res.setWidth 8 <<< 5) ||| 0x1F

/-- PACK_PAYLOAD (R183): the thresholds are zero whatever they were (R186). -/
def packPayload (res : BitVec 2) : Payload := ⟨0x00, 0x00, packCfg res⟩

/-- The 3 payload bytes in the order they are transmitted (R88). -/
def Payload.bytes (p : Payload) : List Byte := [p.th, p.tl, p.configuration]

end Sys2Proof.Machine
end

