-- ==== Sys2Proof/Machine/Bus.lean ====
section
/-! DEFINITION. What the devices do with the bytes on the wire, as far as the spec states it (R65, R115, R116, R131,
R152, R184). The block's registers do not depend on any of it (R52, R53). -/

namespace Sys2Proof.Machine

/-- A device is addressed: by a broadcast every one, by a match the one with that address (R115, R116, R216). DESIGN CHOICE
(log 24): no source states what the devices do when none of them has the matched address (R116, N8); here they take the
rest of the frame and the payload as otherwise, and since none is addressed none of them changes. -/
def Selection.covers (sel : Selection) (d : Device) : Bool :=
  match sel with
  | .nobody    => false
  | .everybody => true
  | .device a  => d.addr = a

/-- Do `f` in every addressed device. -/
def BusSide.onSelected (f : Device → Device) (u : BusSide) : BusSide :=
  { u with devices := u.devices.map fun d => if u.selection.covers d then f d else d }

/-- The device takes three payload bytes (R184). DEDUCED (log 25): its CRC register stays the CRC of its other bytes (R89). -/
def Device.configure (th tl cfg : Byte) (d : Device) : Device :=
  { d with registers := { d.registers with th := th, tl := tl, configuration := cfg }.withCrc }

/-- The device begins a conversion (R131). FREE VALUE (log 16): from then on its temperature registers, low byte first
(R59), hold a count that nothing constrains; when the result appears is not stated (R245). -/
def Device.convert (d : Device) : Device :=
  let count := Config.conversionResult d.addr d.conversions
  { d with
      registers   := { d.registers with
        tempLsb := count.extractLsb' 0 8, tempMsb := count.extractLsb' 8 8 }.withCrc
      conversions := d.conversions + 1 }

/-- A bus reset that found a device opens a frame: its byte 0 comes next, nobody is addressed yet (R111). -/
def BusSide.openFrame (u : BusSide) : BusSide := { u with pos := .addressCommand, selection := .nobody }

/-- No frame is open any more. -/
def BusSide.close (u : BusSide) : BusSide := { u with pos := .closed, selection := .nobody }

/-- SKIP_ROM: the command byte that follows is addressed to every device (R115). -/
def BusSide.skipRom (u : BusSide) : BusSide := { u with pos := .functionCommand, selection := .everybody }

/-- MATCH_ROM: the 8 address bytes come next, and until they are complete nobody is addressed (R116). -/
def BusSide.matchRom (u : BusSide) : BusSide := { u with pos := .address [], selection := .nobody }

/-- An address byte; the eighth one selects the device with that address (R116, R58). -/
def BusSide.takeAddress (got : List Byte) (b : Byte) (u : BusSide) : BusSide :=
  if got.length < 7 then { u with pos := .address (got ++ [b]) }
  else { u with pos := .functionCommand, selection := .device (addrOfBytes (got ++ [b])) }

/-- CONVERT_T: "the addressed device(s) begin an internal conversion" (R131). -/
def BusSide.convertT (u : BusSide) : BusSide :=
  { u.onSelected Device.convert with pos := .closed }

/-- WRITE_SCRATCHPAD: "the addressed device(s) take the next 3 bytes written" (R184). -/
def BusSide.writeScratchpad (u : BusSide) : BusSide := { u with pos := .th }

/-- READ_SCRATCHPAD: the addressed devices supply the next 9 bytes read (R152; log 27 for what follows the read). -/
def BusSide.readScratchpad (u : BusSide) : BusSide := { u with pos := .supplying }

/-- The third payload byte: the addressed devices take the three as `th`, `tl` and `configuration` (R184). DEDUCED
(log 15): they take them together, when the third has come. -/
def BusSide.configure (th tl cfg : Byte) (u : BusSide) : BusSide :=
  { u.onSelected (Device.configure th tl cfg) with pos := .closed }

/-- The configuration byte `cfg`, with the thresholds received before it; where no payload is being received there are
none and the thresholds keep their values (log 22). -/
def BusSide.takeConfiguration (cfg : Byte) (u : BusSide) : BusSide :=
  match u.pos with
  | .configuration th tl => u.configure th tl cfg
  | _ => { u.onSelected (fun d => d.configure d.registers.th d.registers.tl cfg) with pos := .closed }

/-- One byte of a transaction, taken by its position. A byte where the spec gives none a meaning closes the frame or is
ignored; the block sends no such byte (R87, R93; log 14). -/
def BusSide.takeByte (u : BusSide) (b : Byte) : BusSide :=
  match u.pos with
  | .closed | .supplying => u
  | .addressCommand =>
    if b = skipRomByte then u.skipRom else if b = matchRomByte then u.matchRom else u.close
  | .address got => u.takeAddress got b
  | .functionCommand =>
    if b = convertTByte then u.convertT
    else if b = writeScratchpadByte then u.writeScratchpad
    else if b = readScratchpadByte then u.readScratchpad
    else u.close
  | .th => { u with pos := .tl b }
  | .tl th => { u with pos := .configuration th b }
  | .configuration _ _ => u.takeConfiguration b

/-- The devices take the bytes of a write, the first one first (R52). -/
def BusSide.takeBytes (s : List Byte) (u : BusSide) : BusSide := s.foldl BusSide.takeByte u

/-- After a payload write that failed: every addressed device's `th`, `tl` and `configuration` are free values (R249;
log 10). `n` is the draw, `k` numbers the devices. -/
def freeRegisters (sel : Selection) (n : Nat) : Nat → List Device → List Device
  | _, []      => []
  | k, d :: ds =>
    (if sel.covers d then
      d.configure (Config.freeByte n (3 * k)) (Config.freeByte n (3 * k + 1)) (Config.freeByte n (3 * k + 2))
     else d) :: freeRegisters sel n (k + 1) ds

/-- The addressed devices' registers after a payload write that failed or was abandoned (R249). Where the devices stand in
their reception is not touched here. DESIGN CHOICE (log 26): they stand where the prefix that was sent left them, which R52
leaves open between none and all of it (log 9). -/
def BusSide.losePayload (n : Nat) (u : BusSide) : BusSide :=
  { u with devices := freeRegisters u.selection n 0 u.devices }

end Sys2Proof.Machine
end

