-- ==== Sys2Proof/Machine/Flags.lean ====
section
/-! DEFINITION. The block has no condition codes (R34). What it shows of itself are the `busy` output, the codes of
PHASE and STATUS, XERR while it has a meaning, and the two views of TEMP_Q4. -/

namespace Sys2Proof.Machine

variable {E : Type}

/-- The number of a phase; 6 and 7 are never taken (R21). -/
def Phase.code : Phase → BitVec 3
  | .idle => 0 | .reset => 1 | .sendFrame => 2 | .sendPayload => 3 | .readSp => 4 | .decode => 5

/-- The number of a status (R26). -/
def Status.code : Status → BitVec 3
  | .ok => 0 | .invalidArgument => 1 | .notFound => 2 | .invalidCrc => 3
  | .transport => 4 | .configRange => 5 | .illegalOp => 6 | .none => 7

/-- The output `busy`: 1 exactly when PHASE is not IDLE (R21). -/
def State.busy (s : State E) : Bool := s.phase ≠ .idle

/-- XERR as a claim may read it: only while STATUS is TRANSPORT (R27). -/
def State.readableErr (s : State E) : Option E := if s.status = .transport then s.xerr else none

/-- TEMP_C of a count: `count / 16`, exactly (R149). -/
def tempCOf (q : Count) : Rat := (q.toInt : Rat) / 16

/-- TEMP_C (R30): no value exactly when TEMP_Q4 holds none. -/
def State.tempC (s : State E) : Option Rat := s.tempQ4.map tempCOf

/-- The position of the highest 1 among the lowest `n` bits of `m`. -/
def topBit : Nat → Nat → Nat
  | 0, _     => 0
  | n + 1, m => if m.testBit n then n else topBit n m

/-- The IEEE 754 binary32 bits of `count / 16` (R150): sign, biased exponent, 23 fraction bits; +0.0 for 0. With
`p` the position of the magnitude's highest 1, the value is `mag / 2^p * 2^(p - 4)`. -/
def f32OfCount (q : Count) : BitVec 32 :=
  let mag := q.toInt.natAbs
  if mag = 0 then 0
  else
    let p := topBit 16 mag
    BitVec.ofBool q.msb ++ BitVec.ofNat 8 (p + 123) ++ BitVec.ofNat 23 ((mag - 2 ^ p) * 2 ^ (23 - p))

/-- TEMP_F32 (R31): a view of TEMP_Q4. -/
def State.tempF32 (s : State E) : Option (BitVec 32) := s.tempQ4.map f32OfCount

end Sys2Proof.Machine
end

