-- ==== Sys2Proof/Machine/Ops.lean ====
section
/-! DEFINITION. The named operations over the registers: the end of an operation (R210, this block's whole error
mechanism, R200), the three transactions (R50 to R53), the block reset (R240, R241), and the phases of the sequencer
(R22), from which the operations of 41, 42 and 43 are made. -/

namespace Sys2Proof.Machine

variable {E : Type}

/-! ## Single registers and ports -/

/-- PHASE takes a value (R21). -/
def State.enter (p : Phase) (s : State E) : State E := { s with phase := p }

/-- REQ takes a request word (R32, R98). -/
def State.latch (w : ReqWord) (s : State E) : State E := { s with req := w }

/-- The request port holds these words. -/
def State.withRequests (ws : List ReqWord) (s : State E) : State E := { s with requests := ws }

/-- The device side is `u`. -/
def State.withBus (u : BusSide) (s : State E) : State E := { s with bus := u }

/-- These bytes stand on the wire. -/
def BusSide.withLine (bs : List Byte) (u : BusSide) : BusSide := { u with line := bs }

/-! ## The end of an operation (R210) -/

/-- `finish OK` and `raise S` for every status but TRANSPORT: STATUS, PHASE and the event `Done(S)`, nothing else (R210). -/
def State.endWith (st : Status) (s : State E) : State E :=
  { s with status := st, phase := .idle, trace := s.trace ++ [.done st] }

/-- `raise TRANSPORT(e)`: XERR takes exactly the transport's value (R205, R210). -/
def State.endTransport (e : E) (s : State E) : State E := { s with xerr := some e }.endWith .transport

/-- READ_TEMP's success: TEMP_Q4 first, then `finish OK` (R153). -/
def State.finishRead (q : Count) (s : State E) : State E := { s with tempQ4 := some q }.endWith .ok

/-! ## A transaction answered: the answer is used up, and the event is added to the trace (R57) -/

/-- `BusReset()` answered by `a`; `as` are the answers still to come. -/
def State.didReset (a : ResetAnswer E) (as : List (ResetAnswer E)) (s : State E) : State E :=
  { s with transport := { s.transport with resets := as }, trace := s.trace ++ [.reset a] }

/-- `BusWrite(l)` answered by `a`. -/
def State.didWrite (l : List Byte) (a : WriteAnswer E) (as : List (WriteAnswer E)) (s : State E) : State E :=
  { s with transport := { s.transport with writes := as }, trace := s.trace ++ [.write l a] }

/-- `BusRead(9)` answered by `a` (R63: the length is always 9). -/
def State.didRead (a : ReadAnswer E) (as : List (ReadAnswer E)) (s : State E) : State E :=
  { s with transport := { s.transport with reads := as }, trace := s.trace ++ [.read 9 a] }

/-! ## What an operation finds in REQ -/

/-- The request latched in REQ was one of the three operations, with this command byte (R82, R91). -/
def State.command (s : State E) : Option Byte := commandOf (reqOp s.req)

/-- The frame the operation in REQ sends (R110, R130). -/
def State.frameFor (s : State E) (cmd : Byte) : List Byte := buildFrame (targetOf (reqArgs s.req)) cmd

/-- `FRAME[0..FRAME_LEN]` (R111). -/
def State.frameBytes (s : State E) : List Byte := s.frame.take s.frameLen

/-! ## The device side of a write -/

/-- A write that succeeded: all its bytes were transmitted (R52). -/
def State.sendAll (bytes : List Byte) (s : State E) : State E := s.withBus (s.bus.takeBytes bytes)

/-- A write that failed or was abandoned: any prefix of its bytes may have been transmitted. FREE VALUE (R52; log 9). -/
def State.sendPart (bytes : List Byte) (s : State E) : State E :=
  { s with bus := s.bus.takeBytes (bytes.take (Config.sentLen s.draws)), draws := s.draws + 1 }

/-- A payload write that failed or was abandoned: as with every write any prefix of its bytes may have been transmitted, and
the devices stand where it leaves them (R52; log 9, 26); the addressed devices' registers are FREE VALUES (R249; log 10). -/
def State.losePayload (s : State E) : State E :=
  let sent := s.sendPart s.payload.bytes
  sent.withBus (sent.bus.losePayload s.draws)

/-! ## The phases (R22): one transaction each, none while the transport has not answered (R54) -/

/-- The frame is built and comes next: FRAME and FRAME_LEN are written in RESET's successful exit (R24, R110). -/
def State.loadFrame (cmd : Byte) (s : State E) : State E :=
  { s with
      frame    := s.frameFor cmd
      frameLen := (s.frameFor cmd).length
      phase    := .sendFrame
      bus      := s.bus.openFrame }

/-- The payload is built and comes next (R33, R185). -/
def State.loadPayload (s : State E) : State E :=
  { s with payload := packPayload (reqArgs s.req).res, phase := .sendPayload }

/-- SP takes the 9 bytes, and DECODE comes next (R25, R153). -/
def State.loadRecord (sp : Scratchpad) (s : State E) : State E := { s with sp := sp, phase := .decode }

/-- Phase RESET: the bus reset and presence check (R51, R202, R205). A REQ that names no operation ends as R98 says;
no run reaches that. -/
def State.stepReset (s : State E) : State E :=
  match s.transport.resets with
  | [] => s
  | .absent :: as => (s.didReset .absent as).endWith .notFound
  | .err e :: as  => (s.didReset (.err e) as).endTransport e
  | .present :: as =>
    match s.command with
    | some cmd => (s.didReset .present as).loadFrame cmd
    | none     => (s.didReset .present as).endWith .illegalOp

/-- After the frame has been written: TRIGGER ends (R130), READ_TEMP reads (R153), SET_RES sends its payload (R185). -/
def State.afterFrame (s : State E) : State E :=
  if reqOp s.req = 1 then s.endWith .ok
  else if reqOp s.req = 2 then s.enter .readSp
  else if reqOp s.req = 3 then s.loadPayload
  else s.endWith .illegalOp

/-- Phase SEND_FRAME: `BusWrite(FRAME[0..FRAME_LEN])` (R111). -/
def State.stepSendFrame (s : State E) : State E :=
  match s.transport.writes with
  | [] => s
  | .ok :: as    => ((s.didWrite s.frameBytes .ok as).sendAll s.frameBytes).afterFrame
  | .err e :: as => ((s.didWrite s.frameBytes (.err e) as).sendPart s.frameBytes).endTransport e

/-- Phase SEND_PAYLOAD: `BusWrite(PAYLOAD[0..3])` (R185). -/
def State.stepSendPayload (s : State E) : State E :=
  match s.transport.writes with
  | [] => s
  | .ok :: as    => ((s.didWrite s.payload.bytes .ok as).sendAll s.payload.bytes).endWith .ok
  | .err e :: as => ((s.didWrite s.payload.bytes (.err e) as).losePayload).endTransport e

/-- Phase READ_SP: `BusRead(9)`; on an error none of the bytes is used (R53, R153). DESIGN CHOICE (log 27): once the read is
answered, with the bytes or with an error, the devices stay at `supplying` until a bus reset answers `Present`; the spec
states no effect of the read on them (R65). -/
def State.stepReadSp (s : State E) : State E :=
  match s.transport.reads with
  | [] => s
  | .bytes sp :: as => (s.didRead (.bytes sp) as).loadRecord sp
  | .err e :: as    => (s.didRead (.err e) as).endTransport e

/-- What READ_TEMP does with the answer of DECODE (R153): a temperature is written only on success (R154). -/
def State.endDecode (d : Decoded) (s : State E) : State E :=
  match d with
  | .temp q => s.finishRead q
  | .badCrc => s.endWith .invalidCrc
  | .badCfg => s.endWith .configRange

/-- Phase DECODE: no transaction (R21, R151). -/
def State.stepDecode (s : State E) : State E := s.endDecode (decodeRecord s.sp)

/-- One step out of the current phase (R22); in IDLE there is none. -/
def State.advance (s : State E) : State E :=
  match s.phase with
  | .idle        => s
  | .reset       => s.stepReset
  | .sendFrame   => s.stepSendFrame
  | .sendPayload => s.stepSendPayload
  | .readSp      => s.stepReadSp
  | .decode      => s.stepDecode

/-- `n` steps out of phases. -/
def State.advances : Nat → State E → State E
  | 0, s     => s
  | n + 1, s => State.advances n s.advance

/-- The operation in flight goes on until it ends or the transport has no answer for it: after a request has been
taken at most 4 steps out of phases are left (R22). DESIGN CHOICE (log 7): they are one step of the machine. -/
def State.proceed (s : State E) : State E := s.advances 4

/-! ## Taking a request (R98, R217) -/

/-- A request is presented. While an operation is in flight it is not taken and waits behind those that wait already
(R217). In IDLE it is latched and `body` follows (R98). -/
def State.take (w : ReqWord) (body : State E → State E) (s : State E) : State E :=
  if s.busy then s.withRequests (s.requests ++ [w]) else body (s.latch w)

/-- The body of the three operations: check 2 of R208 before any transaction, then phase RESET and on. -/
def State.start (valid : Bool) (s : State E) : State E :=
  if valid then (s.enter .reset).proceed else s.endWith .invalidArgument

/-! ## Block reset (R240, R241) -/

/-- What the devices have of the transaction in flight when an operation is abandoned is unknown: any prefix of its
bytes (R241, R52). FREE VALUES (log 9, 10). An abandoned bus reset or read leaves them (log 12, 27). -/
def State.abandonOnBus (s : State E) : State E :=
  match s.phase with
  | .sendFrame   => s.sendPart s.frameBytes
  | .sendPayload => s.losePayload
  | .idle | .reset | .readSp | .decode => s

/-- The answer to the transaction in flight is ignored if it comes (R241): it is no answer to a later transaction. -/
def State.ignoreAnswer (s : State E) : Transport E :=
  match s.phase with
  | .reset                   => { s.transport with resets := s.transport.resets.tail }
  | .sendFrame | .sendPayload => { s.transport with writes := s.transport.writes.tail }
  | .readSp                  => { s.transport with reads := s.transport.reads.tail }
  | .idle | .decode          => s.transport

/-- A block reset: every register takes its value after reset (R40), no transaction, no `Done` event (R240, R241).
The requests that wait and the trace observed so far are not registers of the block and stay (log 8, 21). -/
def State.blockReset (s : State E) : State E :=
  { s.abandonOnBus with
      phase     := (State.resetOf E).phase
      req       := (State.resetOf E).req
      frame     := (State.resetOf E).frame
      frameLen  := (State.resetOf E).frameLen
      payload   := (State.resetOf E).payload
      sp        := (State.resetOf E).sp
      status    := (State.resetOf E).status
      xerr      := (State.resetOf E).xerr
      tempQ4    := (State.resetOf E).tempQ4
      transport := s.ignoreAnswer
      resetLine := false }

end Sys2Proof.Machine
end

