-- ==== Sys2Proof/Machine/Converter.lean ====
section
/-! DEFINITION. The configuration byte of the record in SP as READ_TEMP decodes it (R144 to R148): its row selects the
LSB mask. The CRC check comes first (R155), and each row ends READ_TEMP as R153 says. -/

namespace Sys2Proof.Machine

variable {E : Type}

/-- CFG_READ_IDX0: mask 0x07, 9-bit (R146). -/
def execCfgReadIdx0 (s : State E) : Host.Outcome (State E) Fault Refusal :=
  .next (s.endDecode (decodeWithIndex 0 s.sp))

/-- CFG_READ_IDX1: mask 0x03, 10-bit (R146). -/
def execCfgReadIdx1 (s : State E) : Host.Outcome (State E) Fault Refusal :=
  .next (s.endDecode (decodeWithIndex 1 s.sp))

/-- CFG_READ_IDX2: mask 0x01, 11-bit (R146). -/
def execCfgReadIdx2 (s : State E) : Host.Outcome (State E) Fault Refusal :=
  .next (s.endDecode (decodeWithIndex 2 s.sp))

/-- CFG_READ_IDX3: mask 0x00, 12-bit (R146). -/
def execCfgReadIdx3 (s : State E) : Host.Outcome (State E) Fault Refusal :=
  .next (s.endDecode (decodeWithIndex 3 s.sp))

/-- CFG_READ_OUT_OF_CONTRACT: the table has no such entry, so the read ends with CONFIG_RANGE after a CRC match, and
with INVALID_CRC otherwise (R145, R155). -/
def execCfgReadOutOfContract (s : State E) : Host.Outcome (State E) Fault Refusal :=
  .next (s.endDecode (if crcOk s.sp then .badCfg else .badCrc))

end Sys2Proof.Machine
end

