-- ==== Sys2Proof/Machine/Requests.lean ====
section
/-! DEFINITION. The three operations (R130, R153, R185) and the reserved requests (R83). -/

namespace Sys2Proof.Machine

variable {E : Type}

/-- TRIGGER (R130): fails at once without a bus handle; then bus reset, frame with CONVERT_T. -/
def execTrigger (a : ReqArgs) (s : State E) : Host.Outcome (State E) Fault Refusal :=
  .next (s.take (reqWord 1 a) (State.start a.busValid))

/-- READ_TEMP (R153): fails at once without a bus handle or an output target; then bus reset, frame with
READ_SCRATCHPAD, 9-byte read, DECODE. -/
def execReadTemp (a : ReqArgs) (s : State E) : Host.Outcome (State E) Fault Refusal :=
  .next (s.take (reqWord 2 a) (State.start (a.busValid && a.outValid)))

/-- SET_RES (R185): fails at once without a bus handle; then bus reset, frame with WRITE_SCRATCHPAD, payload. -/
def execSetRes (a : ReqArgs) (s : State E) : Host.Outcome (State E) Fault Refusal :=
  .next (s.take (reqWord 3 a) (State.start a.busValid))

/-- RESERVED_OP0 (R83): taken, and ends at once with ILLEGAL_OP. -/
def execReservedOp0 (a : ReqArgs) (s : State E) : Host.Outcome (State E) Fault Refusal :=
  .next (s.take (reqWord 0 a) (State.endWith .illegalOp))

/-- RESERVED_OP4 (R83). -/
def execReservedOp4 (a : ReqArgs) (s : State E) : Host.Outcome (State E) Fault Refusal :=
  .next (s.take (reqWord 4 a) (State.endWith .illegalOp))

/-- RESERVED_OP5 (R83). -/
def execReservedOp5 (a : ReqArgs) (s : State E) : Host.Outcome (State E) Fault Refusal :=
  .next (s.take (reqWord 5 a) (State.endWith .illegalOp))

/-- RESERVED_OP6 (R83). -/
def execReservedOp6 (a : ReqArgs) (s : State E) : Host.Outcome (State E) Fault Refusal :=
  .next (s.take (reqWord 6 a) (State.endWith .illegalOp))

/-- RESERVED_OP7 (R83). -/
def execReservedOp7 (a : ReqArgs) (s : State E) : Host.Outcome (State E) Fault Refusal :=
  .next (s.take (reqWord 7 a) (State.endWith .illegalOp))

end Sys2Proof.Machine
end

