-- ==== Sys2Proof/Machine/Wire.lean ====
section
/-! DEFINITION. The wire commands and the written configuration bytes, each as the instruction the devices take when
the byte stands at its place on the wire. No register of the block is touched. -/

namespace Sys2Proof.Machine

variable {E : Type}

/-- SKIP_ROM (R115). -/
def execSkipRom (s : State E) : Host.Outcome (State E) Fault Refusal := .next (s.withBus s.bus.skipRom)

/-- MATCH_ROM (R116). -/
def execMatchRom (s : State E) : Host.Outcome (State E) Fault Refusal := .next (s.withBus s.bus.matchRom)

/-- CONVERT_T (R131). -/
def execConvertT (s : State E) : Host.Outcome (State E) Fault Refusal := .next (s.withBus s.bus.convertT)

/-- WRITE_SCRATCHPAD (R184). -/
def execWriteScratchpad (s : State E) : Host.Outcome (State E) Fault Refusal :=
  .next (s.withBus s.bus.writeScratchpad)

/-- READ_SCRATCHPAD (R152). -/
def execReadScratchpad (s : State E) : Host.Outcome (State E) Fault Refusal :=
  .next (s.withBus s.bus.readScratchpad)

/-- CFG_9BIT: the byte PACK_CFG gives for code 0 becomes the addressed devices' configuration (R181, R184). -/
def execCfg9Bit (s : State E) : Host.Outcome (State E) Fault Refusal :=
  .next (s.withBus (s.bus.takeConfiguration (packCfg 0)))

/-- CFG_10BIT: code 1 (R181, R184). -/
def execCfg10Bit (s : State E) : Host.Outcome (State E) Fault Refusal :=
  .next (s.withBus (s.bus.takeConfiguration (packCfg 1)))

/-- CFG_11BIT: code 2 (R181, R184). -/
def execCfg11Bit (s : State E) : Host.Outcome (State E) Fault Refusal :=
  .next (s.withBus (s.bus.takeConfiguration (packCfg 2)))

/-- CFG_12BIT: code 3 (R181, R184). -/
def execCfg12Bit (s : State E) : Host.Outcome (State E) Fault Refusal :=
  .next (s.withBus (s.bus.takeConfiguration (packCfg 3)))

end Sys2Proof.Machine
end

