-- ==== Sys2Proof/Machine/Dispatch.lean ====
section
/-! DEFINITION. One arm per constructor of `Instr`, each one call of the instruction's meaning. -/

namespace Sys2Proof.Machine

def exec (i : Instr) (s : State) : Host.Outcome State Fault Refusal :=
  match i with
  -- the request port (R98)
  | .trigger a => Sys2Proof.Machine.execTrigger a s
  | .readTemp a => Sys2Proof.Machine.execReadTemp a s
  | .setRes a => Sys2Proof.Machine.execSetRes a s
  | .reservedOp0 a => Sys2Proof.Machine.execReservedOp0 a s
  | .reservedOp4 a => Sys2Proof.Machine.execReservedOp4 a s
  | .reservedOp5 a => Sys2Proof.Machine.execReservedOp5 a s
  | .reservedOp6 a => Sys2Proof.Machine.execReservedOp6 a s
  | .reservedOp7 a => Sys2Proof.Machine.execReservedOp7 a s
  -- the devices' side of the wire (R84, R88)
  | .skipRom => Sys2Proof.Machine.execSkipRom s
  | .matchRom => Sys2Proof.Machine.execMatchRom s
  | .convertT => Sys2Proof.Machine.execConvertT s
  | .writeScratchpad => Sys2Proof.Machine.execWriteScratchpad s
  | .readScratchpad => Sys2Proof.Machine.execReadScratchpad s
  | .cfg9Bit => Sys2Proof.Machine.execCfg9Bit s
  | .cfg10Bit => Sys2Proof.Machine.execCfg10Bit s
  | .cfg11Bit => Sys2Proof.Machine.execCfg11Bit s
  | .cfg12Bit => Sys2Proof.Machine.execCfg12Bit s
  -- the configuration byte of the record in SP (R144)
  | .cfgReadIdx0 _ => Sys2Proof.Machine.execCfgReadIdx0 s
  | .cfgReadIdx1 _ => Sys2Proof.Machine.execCfgReadIdx1 s
  | .cfgReadIdx2 _ => Sys2Proof.Machine.execCfgReadIdx2 s
  | .cfgReadIdx3 _ => Sys2Proof.Machine.execCfgReadIdx3 s
  | .cfgReadOutOfContract _ => Sys2Proof.Machine.execCfgReadOutOfContract s

end Sys2Proof.Machine
end

