-- ==== Sys2Proof/Machine/Fetch.lean ====
section
/-! DEFINITION. Where the next instruction is read, and what the machine does when there is none to read. A block reset
comes before everything (R241), then a byte standing on the wire, then the block's own phase. -/

namespace Sys2Proof.Machine

variable {E : Type}

/-- The place at which the devices read byte `b` of the wire, if a byte there is an instruction. A configuration byte
other than the four that SET_RES writes is data all the same (R184). -/
def BusPos.placeOf (pos : BusPos) (b : Byte) : Option Fetched :=
  match pos with
  | .addressCommand    => some (.addressCommand b)
  | .functionCommand   => some (.functionCommand b)
  | .configuration _ _ =>
    match decodeConfigWritten b with
    | .ok _    => some (.configWritten b)
    | .error _ => none
  | .closed | .address _ | .th | .tl _ | .supplying => none

/-- The instruction that comes next, and the state with it taken from where it stood. A request is read only in IDLE
(R98); in DECODE the configuration byte of the record in SP is (R144). -/
def State.fetch (s : State E) : Option (Fetched × State E) :=
  if s.resetLine then none
  else
    match s.bus.line with
    | b :: bs => (s.bus.pos.placeOf b).map fun f => (f, s.withBus (s.bus.withLine bs))
    | []      =>
      match s.phase with
      | .idle =>
        match s.requests with
        | []      => none
        | w :: ws => some (.request w, s.withRequests ws)
      | .decode => some (.configRead s.sp.configuration, s)
      | .reset | .sendFrame | .sendPayload | .readSp => none

/-- What happens when no instruction comes next: a block reset; a data byte on the wire; or the operation in flight
goes on as far as the transport has answered. In IDLE with no request, and while the transport has not answered,
nothing changes (R54). -/
def State.unfetched (s : State E) : Host.Outcome (State E) Fault Refusal :=
  if s.resetLine then .next s.blockReset
  else
    match s.bus.line with
    | b :: bs =>
      match s.bus.pos with
      | .closed | .supplying => .fault .byteOutOfPlace
      | .addressCommand | .address _ | .functionCommand | .th | .tl _ | .configuration _ _ =>
        .next (s.withBus ((s.bus.withLine bs).takeByte b))
    | [] => .next s.proceed

/-- What a step answers where the bits it read are no instruction: only a command byte on the wire can be none. -/
def notDecoded : DecodeError → Refusal
  | .notAddressCommand b  => .wireCommandNotStated b
  | .notFunctionCommand b => .wireCommandNotStated b
  | .notConfiguration b   => .wireCommandNotStated b

/-- One step of a machine whose instructions have the meaning `run`: the next instruction is read, decoded and executed;
where there is none to read, what `State.unfetched` says happens. -/
def State.stepWith (run : Instr → State E → Host.Outcome (State E) Fault Refusal) (s : State E) :
    Host.Outcome (State E) Fault Refusal :=
  match s.fetch with
  | none         => s.unfetched
  | some (f, s') =>
    match decode f with
    | .ok i    => run i s'
    | .error e => .refused (notDecoded e)

/-- `s` with `f` where the next step reads its instruction; nothing else is changed but what that reading needs. The
byte of a record is decoded only after the CRC check (R155), so the record's CRC is made to agree. -/
def State.place (f : Fetched) (s : State E) : State E :=
  match f with
  | .request w =>
    { s with resetLine := false, bus := { s.bus with line := [] }, phase := .idle, requests := w :: s.requests }
  | .addressCommand b =>
    { s with resetLine := false, bus := { s.bus with line := b :: s.bus.line, pos := .addressCommand } }
  | .functionCommand b =>
    { s with resetLine := false, bus := { s.bus with line := b :: s.bus.line, pos := .functionCommand } }
  | .configWritten b =>
    { s with resetLine := false, bus := { s.bus with line := b :: s.bus.line, pos := .configuration 0 0 } }
  | .configRead b =>
    { s with
        resetLine := false
        bus       := { s.bus with line := [] }
        phase     := .decode
        sp        := { s.sp with configuration := b }.withCrc }

end Sys2Proof.Machine
end

