-- ==== Sys2Proof/Machine/Step.lean ====
section
/-! DEFINITION. One step of the machine that `core` runs, and where its next instruction is placed. -/

namespace Sys2Proof.Machine

/-- One step: `State.stepWith` says how it reads and decodes, `exec` what the instruction does. -/
def step (s : State) : Host.Outcome State Fault Refusal := s.stepWith exec

/-- `s` with the instruction of an opcode-table word where `step` reads its next instruction (log 6, 17). -/
def State.withFetchWord (s : State) (nbits w : Nat) : State := s.place (tableFetched nbits w)

end Sys2Proof.Machine
end

