-- ==== Sys2Proof/Machine/Generic.lean ====
section
/-! DEFINITION. The machine for any type of transport error values (R9), with the same meanings as `exec`, which the host
wants at one type: `exec_eq_execOf` and `step_eq_stepOf` say that `exec` and `step` are this machine at `XportErr`. -/

namespace Sys2Proof.Machine

variable {E : Type}

/-- What an instruction does, whatever the transport's error values are. -/
def execOf (i : Instr) (s : State E) : Host.Outcome (State E) Fault Refusal :=
  match i with
  -- the request port (R98)
  | .trigger a => execTrigger a s
  | .readTemp a => execReadTemp a s
  | .setRes a => execSetRes a s
  | .reservedOp0 a => execReservedOp0 a s
  | .reservedOp4 a => execReservedOp4 a s
  | .reservedOp5 a => execReservedOp5 a s
  | .reservedOp6 a => execReservedOp6 a s
  | .reservedOp7 a => execReservedOp7 a s
  -- the devices' side of the wire (R84, R88)
  | .skipRom => execSkipRom s
  | .matchRom => execMatchRom s
  | .convertT => execConvertT s
  | .writeScratchpad => execWriteScratchpad s
  | .readScratchpad => execReadScratchpad s
  | .cfg9Bit => execCfg9Bit s
  | .cfg10Bit => execCfg10Bit s
  | .cfg11Bit => execCfg11Bit s
  | .cfg12Bit => execCfg12Bit s
  -- the configuration byte of the record in SP (R144)
  | .cfgReadIdx0 _ => execCfgReadIdx0 s
  | .cfgReadIdx1 _ => execCfgReadIdx1 s
  | .cfgReadIdx2 _ => execCfgReadIdx2 s
  | .cfgReadIdx3 _ => execCfgReadIdx3 s
  | .cfgReadOutOfContract _ => execCfgReadOutOfContract s

/-- One step, whatever the transport's error values are. -/
def stepOf (s : State E) : Host.Outcome (State E) Fault Refusal := s.stepWith execOf

end Sys2Proof.Machine
end

