-- ==== Sys2Proof/Safety.lean ====
section
/-! DEFINITION. The terms claims are written in: what an operation leaves when it ends or waits, what the registers
satisfy between steps, which events the block may emit, and the maps used by the statements about what a run does not
depend on. -/

namespace Sys2Proof.Machine

variable {E F : Type}

/-! ## How an operation stands after it has been presented -/

/-- The operation taken in `s` has ended in `t` with status `st`, after the events `evs` (R210): `xerr` is what XERR
holds. -/
structure Ended (s t : State E) (evs : List (Event E)) (st : Status) (xerr : Option E) : Prop where
  phase  : t.phase = .idle
  status : t.status = st
  xerr   : t.xerr = xerr
  trace  : t.trace = s.trace ++ evs ++ [.done st]

/-- The operation taken in `s` waits in `t` for the transport, in phase `p`, after the events `evs`: STATUS and XERR
still hold what they held (R251). -/
structure Waiting (s t : State E) (evs : List (Event E)) (p : Phase) : Prop where
  phase  : t.phase = p
  status : t.status = s.status
  xerr   : t.xerr = s.xerr
  trace  : t.trace = s.trace ++ evs

/-- The same answers with further ones `x` behind them. -/
def Transport.append (a x : Transport E) : Transport E where
  resets := a.resets ++ x.resets
  writes := a.writes ++ x.writes
  reads  := a.reads ++ x.reads

/-- The transport has an answer for every transaction an operation can ask for (the environment premise of R54). -/
def Transport.Ready (a : Transport E) : Prop := a.resets ≠ [] ∧ 2 ≤ a.writes.length ∧ a.reads ≠ []

/-! ## What a payload that was not delivered may have changed -/

/-- Of the devices `ds`, which stand in the same order in `ds'`, those that `sel` does not address are as before, and the
addressed ones differ at most in `th`, `tl`, `configuration` and `crc` (R249). -/
def PayloadLost (sel : Selection) (ds ds' : List Device) : Prop :=
  ds'.length = ds.length ∧
    ∀ (k : Nat) (d d' : Device), ds[k]? = some d → ds'[k]? = some d' →
      d'.addr = d.addr ∧ d'.conversions = d.conversions ∧ (sel.covers d = false → d' = d) ∧
      ∃ th tl cfg crc, d'.registers = { d.registers with th := th, tl := tl, configuration := cfg, crc := crc }

/-! ## The invariant -/

/-- A request word whose operation may have transactions: one of the three, with its handle and target (R208). -/
def Startable (w : ReqWord) : Prop :=
  (reqOp w = 1 ∨ reqOp w = 2 ∨ reqOp w = 3) ∧ (reqArgs w).busValid = true ∧
    (reqOp w = 2 → (reqArgs w).outValid = true)

/-- What holds between any two steps. -/
structure State.Inv (s : State E) : Prop where
  /-- an operation in flight is one that passed checks 1 and 2 (R208) -/
  inFlight : s.busy = true → Startable s.req
  /-- FRAME is the frame of the operation in flight while it is being sent (R24, R111) -/
  frame    : s.phase = .sendFrame →
    ∃ cmd, s.command = some cmd ∧ s.frame = s.frameFor cmd ∧ s.frameLen = s.frame.length
  /-- only SET_RES sends a payload, and it is that of its resolution (R21, R33) -/
  payload  : s.phase = .sendPayload → reqOp s.req = 3 ∧ s.payload = packPayload (reqArgs s.req).res
  /-- only READ_TEMP reads and decodes (R21) -/
  reading  : s.phase = .readSp ∨ s.phase = .decode → reqOp s.req = 2
  /-- XERR holds a value whenever STATUS is TRANSPORT (R27) -/
  err      : s.status = .transport → s.xerr ≠ none
  /-- while no operation has ended since reset there is no error value and no temperature (R26, R29) -/
  fresh    : s.status = .none → s.xerr = none ∧ s.tempQ4 = none
  /-- device addresses are unique (R15) -/
  devices  : (s.bus.devices.map Device.addr).Nodup
  /-- at most 8 address bytes belong to a frame (R86) -/
  address  : ∀ got, s.bus.pos = .address got → got.length < 8

/-! ## The events the block may emit -/

/-- A byte sequence is a command frame: one of the two forms with one of the three command bytes (R85, R86, R93). -/
def IsFrame (bytes : List Byte) : Prop :=
  ∃ cmd : Byte, (cmd = 0x44 ∨ cmd = 0x4E ∨ cmd = 0xBE) ∧
    (bytes = [0xCC, cmd] ∨ ∃ a : Addr, bytes = 0x55 :: (addrBytes a ++ [cmd]))

/-- A byte sequence is a write-scratchpad payload (R88). -/
def IsPayload (bytes : List Byte) : Prop := ∃ res : BitVec 2, bytes = [0x00, 0x00, packCfg res]

/-- The transactions of R63: a write is a frame or a payload, a read is of 9 bytes. -/
def Event.Legal : Event E → Prop
  | .write bytes _ => IsFrame bytes ∨ IsPayload bytes
  | .read n _      => n = 9
  | .reset _ | .done _ => True

/-! ## What a run does not depend on -/

/-- Apply a map to the state of a next outcome. -/
def mapNext (f : State E → State F) : Host.Outcome (State E) Fault Refusal → Host.Outcome (State F) Fault Refusal
  | .next s    => .next (f s)
  | .fault r   => .fault r
  | .refused r => .refused r

/-- The state without the buffers that have no meaning in its phase (R24, R25, R33, R39): REQ lives while an operation
is in flight, FRAME in SEND_FRAME, PAYLOAD in SEND_PAYLOAD, SP in DECODE. -/
def State.forgetDead (s : State E) : State E :=
  { s with
      req      := if s.phase = .idle then 0 else s.req
      frame    := if s.phase = .sendFrame then s.frame else []
      frameLen := if s.phase = .sendFrame then s.frameLen else 0
      payload  := if s.phase = .sendPayload then s.payload else ⟨0, 0, 0⟩
      sp       := if s.phase = .decode then s.sp else ⟨0, 0, 0, 0, 0, 0, 0, 0, 0⟩ }

/-- Rename the error value of an answer to a bus reset. -/
def ResetAnswer.rename (f : E → F) : ResetAnswer E → ResetAnswer F
  | .present => .present
  | .absent  => .absent
  | .err e   => .err (f e)

/-- Rename the error value of an answer to a write. -/
def WriteAnswer.rename (f : E → F) : WriteAnswer E → WriteAnswer F
  | .ok    => .ok
  | .err e => .err (f e)

/-- Rename the error value of an answer to a read. -/
def ReadAnswer.rename (f : E → F) : ReadAnswer E → ReadAnswer F
  | .bytes s => .bytes s
  | .err e   => .err (f e)

/-- Rename the error value of an event. -/
def Event.rename (f : E → F) : Event E → Event F
  | .reset a   => .reset (a.rename f)
  | .write s a => .write s (a.rename f)
  | .read n a  => .read n (a.rename f)
  | .done st   => .done st

/-- Rename every transport error value of a state: those to come, those forwarded and those observed (R9). Where `F` is
another type than `E`, it is the same machine over another type of error values. -/
def State.rename (f : E → F) (s : State E) : State F :=
  { s with
      xerr      := s.xerr.map f
      transport :=
        { resets := s.transport.resets.map (ResetAnswer.rename f)
          writes := s.transport.writes.map (WriteAnswer.rename f)
          reads  := s.transport.reads.map (ReadAnswer.rename f) }
      trace     := s.trace.map (Event.rename f) }

/-! ## Independent readings of three rules -/

/-- The bits of a byte sequence in the order the CRC takes them: least significant bit of each byte first (R140). -/
def crcBitsOf (s : List Byte) : List Bool := s.flatMap fun b => (List.range 8).map fun i => b.getLsbD i

/-- The remainder of a bit sequence, first bit first, by `x^8 + x^5 + x^4 + 1` (0x31 without its `x^8` term), as
polynomial division with the `x^7` coefficient in bit 7: the seed is 0 (R7, R140). -/
def polyRemainder (bits : List Bool) : Byte :=
  bits.foldl (fun r b => if r.getLsbD 7 ^^ b then (r <<< 1) ^^^ 0x31 else r <<< 1) 0

/-- The number an IEEE 754 binary32 pattern stands for when its exponent field is neither 0 nor 255, and 0 for the two
zeros (R150). -/
def f32Value (w : BitVec 32) : Rat :=
  let frac : Rat := ((w.extractLsb' 0 23).toNat : Rat)
  let expo : Int := ((w.extractLsb' 23 8).toNat : Int)
  let sign : Rat := if w.getLsbD 31 then -1 else 1
  if w.extractLsb' 0 31 = 0 then 0 else sign * (1 + frac / 2 ^ 23) * (2 : Rat) ^ (expo - 127)

/-- The failing checks of R208 in its order, for a request word and the transport's answers: each is whether the check
fails, whatever the others do, and the status it reports. -/
def checksOf (w : ReqWord) (a : Transport E) : List (Bool × Status) :=
  let op   := reqOp w
  let args := reqArgs w
  let sp   := match a.reads.head? with | some (.bytes s) => some s | _ => none
  let isErr : Option (WriteAnswer E) → Bool := fun | some (.err _) => true | _ => false
  [ (op ≠ 1 ∧ op ≠ 2 ∧ op ≠ 3, .illegalOp),
    (args.busValid = false ∨ (op = 2 ∧ args.outValid = false), .invalidArgument),
    (match a.resets.head? with | some .absent => true | _ => false, .notFound),
    (match a.resets.head? with | some (.err _) => true | _ => false, .transport),
    (isErr a.writes[0]?, .transport),
    (op = 3 ∧ isErr a.writes[1]? = true, .transport),
    (op = 2 ∧ (match a.reads.head? with | some (.err _) => true | _ => false) = true, .transport),
    (op = 2 ∧ (match sp with | some s => !crcOk s | none => false) = true, .invalidCrc),
    (op = 2 ∧ (match sp with | some s => s.configuration.getLsbD 7 | none => false) = true, .configRange) ]

/-- The status R208 makes an operation report: that of the first check that fails, else OK. -/
def reported (w : ReqWord) (a : Transport E) : Status :=
  match (checksOf w a).find? (·.1) with
  | some c => c.2
  | none   => .ok

end Sys2Proof.Machine
end

