-- ==== Sys2Proof/Certificates/Slice0/Obligations.lean ====
section
/-! DEFINITION. The statements for the provers. Each docstring names the rule of spec/ it formalises; where a clause rests
on a choice of the model it names the log entry. A statement about a free value holds for every value of it. -/

open Sys2Proof
open Sys2Proof.Machine

/-! ## Reset and the invariant -/

/-- R40, the values the spec gives: after reset PHASE is IDLE, `busy` is 0, STATUS is NONE (code 7), XERR and TEMP_Q4
hold no value, and so neither do their views. -/
def Obligations.ResetValuesTheSpecGives : Prop :=
  State.reset.phase = .idle ∧ State.reset.phase.code = 0 ∧ State.reset.busy = false ∧ State.reset.status = .none ∧
  State.reset.status.code = 7 ∧ State.reset.xerr = none ∧ State.reset.tempQ4 = none ∧
  State.reset.tempC = none ∧ State.reset.tempF32 = none

/-- The invariant holds at reset. -/
def Obligations.ResetMeetsInvariant : Prop := State.reset.Inv

/-- R21 and R26: the numbers of the six phases and of the eight statuses; phase codes 6 and 7 are never taken, and `busy` is
1 exactly when PHASE is not IDLE. -/
def Obligations.CodesOfPhaseAndStatus : Prop :=
  (Phase.idle.code = 0 ∧ Phase.reset.code = 1 ∧ Phase.sendFrame.code = 2 ∧ Phase.sendPayload.code = 3 ∧
    Phase.readSp.code = 4 ∧ Phase.decode.code = 5) ∧
  (Status.ok.code = 0 ∧ Status.invalidArgument.code = 1 ∧ Status.notFound.code = 2 ∧ Status.invalidCrc.code = 3 ∧
    Status.transport.code = 4 ∧ Status.configRange.code = 5 ∧ Status.illegalOp.code = 6 ∧ Status.none.code = 7) ∧
  (∀ p : Phase, p.code ≠ 6 ∧ p.code ≠ 7) ∧ ∀ s : State, s.busy = true ↔ s.phase.code ≠ 0

/-- The invariant (R15, R21, R24, R26, R27, R29, R33, R86, R208) is kept by every step, from every state that has it. -/
def Obligations.StepKeepsInvariant : Prop :=
  ∀ s t : State, s.Inv → step s = .next t → t.Inv

/-- A block reset (R240, R241), in every state: PHASE, STATUS, XERR and TEMP_Q4 take their values after reset; no event
is added to the trace, neither a transaction nor a `Done`; the requests that wait still wait; the devices are the same
ones. With no write in flight the whole device side is as before. In SEND_FRAME the devices have taken some prefix of the
frame, in SEND_PAYLOAD some prefix of the payload, after which the addressed ones hold free values in what R249 names;
counted from where a payload is taken (`th`) that leaves every device not addressed, and all else in the addressed ones,
as they were before the step. The model's choices: the trace and the waiting requests stay, and the answer to the
transaction in flight is the one that is ignored (log 8, 21); an abandoned bus reset or read leaves the devices (log 12,
27); the prefix and the registers are free values (log 9, 10); the devices stay where the prefix led (log 26). The list
of devices and their CRC registers are logs 11 and 25. -/
def Obligations.BlockResetAbandonsTheOperation : Prop :=
  ∀ s : State, s.resetLine = true →
    ∃ t, step s = .next t ∧ t.phase = .idle ∧ t.busy = false ∧ t.status = .none ∧ t.xerr = none ∧
      t.tempQ4 = none ∧ t.trace = s.trace ∧ t.requests = s.requests ∧ t.resetLine = false ∧
      t.bus.devices.map Device.addr = s.bus.devices.map Device.addr ∧
      (s.phase = .idle ∨ s.phase = .decode → t.bus = s.bus ∧ t.transport = s.transport) ∧
      (s.phase = .reset ∨ s.phase = .readSp → t.bus = s.bus) ∧
      (s.phase = .sendFrame → ∃ k, t.bus = s.bus.takeBytes (s.frameBytes.take k)) ∧
      (s.phase = .sendPayload → ∃ k n,
        let u := s.bus.takeBytes (s.payload.bytes.take k)
        t.bus = { u with devices := freeRegisters u.selection n 0 u.devices } ∧
        PayloadLost u.selection u.devices t.bus.devices ∧
        (s.bus.pos = .th → PayloadLost s.bus.selection s.bus.devices t.bus.devices)) ∧
      (s.phase = .reset → t.transport = { s.transport with resets := s.transport.resets.tail }) ∧
      (s.phase = .sendFrame ∨ s.phase = .sendPayload →
        t.transport = { s.transport with writes := s.transport.writes.tail }) ∧
      (s.phase = .readSp → t.transport = { s.transport with reads := s.transport.reads.tail })

/-! ## Encodings -/

/-- Decode and encode agree: every well-formed instruction, with every operand value, is read back from its own bits. -/
def Obligations.DecodeReadsBackEncode : Prop :=
  ∀ i : Instr, i.wf = true → decode (encode i) = .ok i

/-- No bit of an encoding is dropped: whatever decodes is the encoding of the instruction it decodes to, which is well
formed. -/
def Obligations.EncodeReadsBackDecode : Prop :=
  ∀ (f : Fetched) (i : Instr), decode f = .ok i → encode i = f ∧ i.wf = true

/-- R97: the four example request words, and what they decode to. R97 is the spec's own derivation from R80. -/
def Obligations.ExampleRequestWords : Prop :=
  decode (.request 0x000000000000000041) = .ok (.trigger ⟨false, 0, true, false, 0⟩) ∧
  decode (.request 0xEA051691604CFF28CA) = .ok (.readTemp ⟨true, 0, true, true, 0xEA051691604CFF28⟩) ∧
  decode (.request 0xEA051691604CFF285B) = .ok (.setRes ⟨true, 1, true, false, 0xEA051691604CFF28⟩) ∧
  decode (.request 0x000000000000000082) = .ok (.readTemp ⟨false, 0, false, true, 0⟩)

/-- The words of R84 and R90 and one read configuration byte of each row (R145, R146). -/
def Obligations.WireAndConfigurationBytes : Prop :=
  decode (.addressCommand 0xCC) = .ok .skipRom ∧ decode (.addressCommand 0x55) = .ok .matchRom ∧
  decode (.functionCommand 0x44) = .ok .convertT ∧ decode (.functionCommand 0x4E) = .ok .writeScratchpad ∧
  decode (.functionCommand 0xBE) = .ok .readScratchpad ∧
  decode (.configWritten 0x1F) = .ok .cfg9Bit ∧ decode (.configWritten 0x3F) = .ok .cfg10Bit ∧
  decode (.configWritten 0x5F) = .ok .cfg11Bit ∧ decode (.configWritten 0x7F) = .ok .cfg12Bit ∧
  decode (.configRead 0x00) = .ok (.cfgReadIdx0 0x00) ∧ decode (.configRead 0x3F) = .ok (.cfgReadIdx1 0x3F) ∧
  decode (.configRead 0x5F) = .ok (.cfgReadIdx2 0x5F) ∧ decode (.configRead 0x7F) = .ok (.cfgReadIdx3 0x7F) ∧
  decode (.configRead 0x9F) = .ok (.cfgReadOutOfContract 0x9F)

/-- R58: address byte `i`, transmitted `i`-th at frame position `1 + i`, is `addr[8i+7:8i]`; the devices read the same
address back from the 8 bytes in that order. -/
def Obligations.AddressBytesLeastSignificantFirst : Prop :=
  ∀ a : Addr, (addrBytes a).length = 8 ∧
    (∀ i, i < 8 → (addrBytes a)[i]? = some (a.extractLsb' (8 * i) 8) ∧
      ∀ cmd : Byte, (buildFrame (.addressed a) cmd)[1 + i]? = some (a.extractLsb' (8 * i) 8)) ∧
    addrOfBytes (addrBytes a) = a

/-- R110: BUILD_FRAME's two forms, for every address and every command byte, with their lengths; the target is that of
the request; and the sequencer's use of it writes FRAME and FRAME_LEN with it. -/
def Obligations.BuildFrameForms : Prop :=
  ∀ cmd : Byte,
    buildFrame .broadcast cmd = [0xCC, cmd] ∧ (buildFrame .broadcast cmd).length = 2 ∧
    ∀ a : Addr,
      buildFrame (.addressed a) cmd =
        [0x55, a.extractLsb' 0 8, a.extractLsb' 8 8, a.extractLsb' 16 8, a.extractLsb' 24 8,
         a.extractLsb' 32 8, a.extractLsb' 40 8, a.extractLsb' 48 8, a.extractLsb' 56 8, cmd] ∧
      (buildFrame (.addressed a) cmd).length = 10 ∧
      (∀ args : ReqArgs,
        (args.addrValid = false → targetOf args = .broadcast) ∧
        (args.addrValid = true → targetOf args = .addressed args.addr)) ∧
      (∀ s : State, (s.loadFrame cmd).frame = buildFrame (targetOf (reqArgs s.req)) cmd ∧
        (s.loadFrame cmd).frameLen = (buildFrame (targetOf (reqArgs s.req)) cmd).length)

/-! ## A step runs the decoded instruction -/

/-- The request port: in IDLE, with nothing on the wire and no block reset, the first request presented is taken from the
port and the step is its instruction's. The port as a queue is the model's (log 6). -/
def Obligations.StepRunsTheRequest : Prop :=
  ∀ (s : State) (w : ReqWord) (ws : List ReqWord),
    s.resetLine = false → s.bus.line = [] → s.phase = .idle → s.requests = w :: ws →
    step s = exec (decodeRequest w) { s with requests := ws } ∧ (decodeRequest w).wf = true

/-- The wire: the first byte on it, where the devices expect a command or one of the four configuration bytes, is taken
from the wire and the step is its instruction's. The wire as a place to read from is the model's (log 13). -/
def Obligations.StepRunsTheWireByte : Prop :=
  ∀ (s : State) (b : Byte) (bs : List Byte) (i : Instr),
    s.resetLine = false → s.bus.line = b :: bs →
    ((s.bus.pos = .addressCommand ∧ decode (.addressCommand b) = .ok i) ∨
     (s.bus.pos = .functionCommand ∧ decode (.functionCommand b) = .ok i) ∨
     ((∃ th tl, s.bus.pos = .configuration th tl) ∧ decode (.configWritten b) = .ok i)) →
    step s = exec i { s with bus := { s.bus with line := bs } }

/-- DECODE: the configuration byte of the record in SP is the next instruction (R144), and the step is its.
That DECODE is a place to read an instruction from is the model's (log 7). -/
def Obligations.StepRunsTheConfigurationByte : Prop :=
  ∀ s : State, s.resetLine = false → s.bus.line = [] → s.phase = .decode →
    step s = exec (decodeConfigRead s.sp.configuration) s ∧ (decodeConfigRead s.sp.configuration).wf = true

/-- What a step is where no instruction comes next: a block reset; a data byte of a frame or payload taken by the
devices; in IDLE with no request, nothing; in a phase with a transaction, the operation in flight going on through at
most 4 phases (R22; log 7). -/
def Obligations.StepWithoutAnInstruction : Prop :=
  ∀ s : State,
    (s.resetLine = true → step s = .next s.blockReset) ∧
    (s.resetLine = false → ∀ b bs, s.bus.line = b :: bs →
      (∃ got, s.bus.pos = .address got) ∨ s.bus.pos = .th ∨ (∃ th, s.bus.pos = .tl th) ∨
        ((∃ th tl, s.bus.pos = .configuration th tl) ∧ b ≠ 0x1F ∧ b ≠ 0x3F ∧ b ≠ 0x5F ∧ b ≠ 0x7F) →
      step s = .next { s with bus := { s.bus with line := bs }.takeByte b }) ∧
    (s.resetLine = false → s.bus.line = [] → s.phase = .idle → s.requests = [] → step s = .next s) ∧
    (s.resetLine = false → s.bus.line = [] →
      s.phase = .reset ∨ s.phase = .sendFrame ∨ s.phase = .sendPayload ∨ s.phase = .readSp →
      step s = .next s.advance.advance.advance.advance)

/-- A placed opcode-table word is the very next instruction. The placement is the model's (log 6, 17). -/
def Obligations.PlacedWordRunsNext : Prop :=
  ∀ (s : State) (nbits w : Nat) (i : Instr), decodeTableWord nbits w = some i →
    ∃ s', step (s.withFetchWord nbits w) = exec i s' ∧ s'.status = s.status ∧ s'.xerr = s.xerr ∧
      s'.tempQ4 = s.tempQ4 ∧ s'.trace = s.trace ∧ s'.transport = s.transport ∧ s'.bus.devices = s.bus.devices

/-- Exactly which steps stop (R87, R93; log 14). With nothing on the wire, and at a block reset, every step has a next state.
Else, with `b` the first byte on the wire: it faults exactly where no frame is open or devices supply bytes, it refuses
exactly where `b` stands at a command position and is no command of that position (byte 0: 0xCC, 0x55; the command byte:
0x44, 0x4E, 0xBE), and in every other case it goes on. With nothing on the wire the next state has nothing there either. -/
def Obligations.OnlyForeignBytesStopTheMachine : Prop :=
  ∀ s : State,
    (s.bus.line = [] → ∃ t, step s = .next t ∧ t.bus.line = []) ∧
    (s.resetLine = true → ∃ t, step s = .next t) ∧
    (∀ b bs, s.resetLine = false → s.bus.line = b :: bs →
      let outOfPlace := s.bus.pos = .closed ∨ s.bus.pos = .supplying
      let noCommand :=
        (s.bus.pos = .addressCommand ∧ b ≠ 0xCC ∧ b ≠ 0x55) ∨
        (s.bus.pos = .functionCommand ∧ b ≠ 0x44 ∧ b ≠ 0x4E ∧ b ≠ 0xBE)
      (outOfPlace → step s = .fault .byteOutOfPlace) ∧
      (noCommand → step s = .refused (.wireCommandNotStated b)) ∧
      (¬ outOfPlace → ¬ noCommand → ∃ t, step s = .next t ∧ t.bus.line = bs))

/-- R98: dispatch of a request word. In IDLE it is latched and decoded by `op`: 1, 2 and 3 run the three operations on the
word's own fields, every other code ends with ILLEGAL_OP; while an operation is in flight it is not taken. -/
def Obligations.DispatchByOperationCode : Prop :=
  ∀ (w : ReqWord) (s : State),
    (reqOp w = 1 → decodeRequest w = .trigger (reqArgs w)) ∧
    (reqOp w = 2 → decodeRequest w = .readTemp (reqArgs w)) ∧
    (reqOp w = 3 → decodeRequest w = .setRes (reqArgs w)) ∧
    (s.phase = .idle → ∃ t, exec (decodeRequest w) s = .next t ∧ t.req = w ∧
      (reqOp w ≠ 1 → reqOp w ≠ 2 → reqOp w ≠ 3 → t = { s with req := w }.endWith .illegalOp)) ∧
    (s.phase ≠ .idle → ∃ t, exec (decodeRequest w) s = .next t ∧ t.req = s.req ∧ t.phase = s.phase)

/-! ## The operations -/

/-- R210: what the end of an operation does, and that it does nothing else; READ_TEMP's success writes TEMP_Q4 before. -/
def Obligations.EndOfAnOperation : Prop :=
  ∀ (s : State) (st : Status) (e : XportErr),
    s.endWith st = { s with status := st, phase := .idle, trace := s.trace ++ [.done st] } ∧
    s.endTransport e =
      { s with status := .transport, xerr := some e, phase := .idle, trace := s.trace ++ [.done .transport] } ∧
    (∀ q : Count, s.finishRead q = { s with tempQ4 := some q }.endWith .ok) ∧
    (s.endWith st).busy = false ∧ (s.endTransport e).busy = false

/-- R130: TRIGGER, presented in IDLE, for every operand word and every answer of the transport: its transactions in order,
its status, the frame it builds, and the registers it never writes. Where the transport has not answered it waits in
the phase of that transaction (R54). What FRAME holds once it has ended is BuffersAfterAnOperation's. -/
def Obligations.TriggerRuns : Prop :=
  ∀ (a : ReqArgs) (s : State), s.phase = .idle →
    ∃ t, exec (.trigger a) s = .next t ∧ t.req = reqWord 1 a ∧ t.tempQ4 = s.tempQ4 ∧
      t.payload = s.payload ∧ t.sp = s.sp ∧ t.requests = s.requests ∧
      (a.busValid = false → Ended s t [] .invalidArgument s.xerr ∧ t.transport = s.transport ∧ t.bus = s.bus) ∧
      (a.busValid = true →
        match s.transport.resets with
        | []          => Waiting s t [] .reset
        | .absent :: _ => Ended s t [.reset .absent] .notFound s.xerr
        | .err e :: _ => Ended s t [.reset (.err e)] .transport (some e)
        | .present :: _ =>
          let f := buildFrame (targetOf a) 0x44
          match s.transport.writes with
          | []         =>
            Waiting s t [.reset .present] .sendFrame ∧ t.frame = f ∧ t.frameLen = f.length
          | .err e :: _ => Ended s t [.reset .present, .write f (.err e)] .transport (some e)
          | .ok :: _   => Ended s t [.reset .present, .write f .ok] .ok s.xerr)

/-- R153: READ_TEMP, presented in IDLE, for every operand word and every answer: its transactions in order, its status,
and TEMP_Q4, which is written only where it ends with OK. -/
def Obligations.ReadTempRuns : Prop :=
  ∀ (a : ReqArgs) (s : State), s.phase = .idle →
    ∃ t, exec (.readTemp a) s = .next t ∧ t.req = reqWord 2 a ∧ t.payload = s.payload ∧ t.requests = s.requests ∧
      (a.busValid = false ∨ a.outValid = false →
        Ended s t [] .invalidArgument s.xerr ∧ t.tempQ4 = s.tempQ4 ∧ t.transport = s.transport ∧ t.bus = s.bus) ∧
      (a.busValid = true → a.outValid = true →
        match s.transport.resets with
        | []          => Waiting s t [] .reset ∧ t.tempQ4 = s.tempQ4
        | .absent :: _ => Ended s t [.reset .absent] .notFound s.xerr ∧ t.tempQ4 = s.tempQ4
        | .err e :: _ => Ended s t [.reset (.err e)] .transport (some e) ∧ t.tempQ4 = s.tempQ4
        | .present :: _ =>
          let f := buildFrame (targetOf a) 0xBE
          match s.transport.writes with
          | []         =>
            Waiting s t [.reset .present] .sendFrame ∧ t.frame = f ∧ t.frameLen = f.length ∧ t.tempQ4 = s.tempQ4
          | .err e :: _ =>
            Ended s t [.reset .present, .write f (.err e)] .transport (some e) ∧ t.tempQ4 = s.tempQ4
          | .ok :: _   =>
            match s.transport.reads with
            | []         => Waiting s t [.reset .present, .write f .ok] .readSp ∧ t.tempQ4 = s.tempQ4
            | .err e :: _ =>
              Ended s t [.reset .present, .write f .ok, .read 9 (.err e)] .transport (some e) ∧
              t.tempQ4 = s.tempQ4
            | .bytes sp :: _ =>
              match decodeRecord sp with
              | .badCrc =>
                Ended s t [.reset .present, .write f .ok, .read 9 (.bytes sp)] .invalidCrc s.xerr ∧
                t.tempQ4 = s.tempQ4
              | .badCfg =>
                Ended s t [.reset .present, .write f .ok, .read 9 (.bytes sp)] .configRange s.xerr ∧
                t.tempQ4 = s.tempQ4
              | .temp q =>
                Ended s t [.reset .present, .write f .ok, .read 9 (.bytes sp)] .ok s.xerr ∧
                t.tempQ4 = some q)

/-- R185: SET_RES, presented in IDLE, for every operand word and every answer: its transactions in order (the payload is
a second write, sent only after the frame), its status, its payload, and the registers it never writes. -/
def Obligations.SetResRuns : Prop :=
  ∀ (a : ReqArgs) (s : State), s.phase = .idle →
    ∃ t, exec (.setRes a) s = .next t ∧ t.req = reqWord 3 a ∧ t.tempQ4 = s.tempQ4 ∧ t.sp = s.sp ∧
      t.requests = s.requests ∧
      (a.busValid = false → Ended s t [] .invalidArgument s.xerr ∧ t.transport = s.transport ∧ t.bus = s.bus) ∧
      (a.busValid = true →
        match s.transport.resets with
        | []          => Waiting s t [] .reset
        | .absent :: _ => Ended s t [.reset .absent] .notFound s.xerr
        | .err e :: _ => Ended s t [.reset (.err e)] .transport (some e)
        | .present :: _ =>
          let f := buildFrame (targetOf a) 0x4E
          match s.transport.writes with
          | []         =>
            Waiting s t [.reset .present] .sendFrame ∧ t.frame = f ∧ t.frameLen = f.length
          | .err e :: _ => Ended s t [.reset .present, .write f (.err e)] .transport (some e)
          | .ok :: ws  =>
            let p : List Byte := [0x00, 0x00, packCfg a.res]
            match ws with
            | []         =>
              Waiting s t [.reset .present, .write f .ok] .sendPayload ∧
              t.payload = ⟨0x00, 0x00, packCfg a.res⟩
            | .err e :: _ =>
              Ended s t [.reset .present, .write f .ok, .write p (.err e)] .transport (some e)
            | .ok :: _   => Ended s t [.reset .present, .write f .ok, .write p .ok] .ok s.xerr)

/-- What FRAME, FRAME_LEN, SP and PAYLOAD hold when a request presented in IDLE has run, whether it has ended or waits: what
R24, R153 and R185 have it write before. That they still hold it after the operation has ended, on failure too, is the
model's reading of R211 (log 2, DEDUCED); R39 gives them no meaning then. -/
def Obligations.BuffersAfterAnOperation : Prop :=
  ∀ (a : ReqArgs) (s : State) (rs : List ResetAnswer), s.phase = .idle → a.busValid = true →
    s.transport.resets = .present :: rs →
    (∃ t, exec (.trigger a) s = .next t ∧ t.frame = buildFrame (targetOf a) 0x44 ∧
      t.frameLen = (buildFrame (targetOf a) 0x44).length) ∧
    (a.outValid = true → ∃ t, exec (.readTemp a) s = .next t ∧ t.frame = buildFrame (targetOf a) 0xBE ∧
      t.frameLen = (buildFrame (targetOf a) 0xBE).length ∧
      ∀ ws sp ds, s.transport.writes = .ok :: ws → s.transport.reads = .bytes sp :: ds → t.sp = sp) ∧
    (∃ t, exec (.setRes a) s = .next t ∧ t.frame = buildFrame (targetOf a) 0x4E ∧
      t.frameLen = (buildFrame (targetOf a) 0x4E).length ∧
      ∀ ws, s.transport.writes = .ok :: ws → t.payload = ⟨0x00, 0x00, packCfg a.res⟩)

/-- R83, R206: a request with a reserved `op`, presented in IDLE, is taken and ends at once with ILLEGAL_OP: no
transaction, and nothing written but REQ, STATUS and the event. -/
def Obligations.ReservedRequestsEndAtOnce : Prop :=
  ∀ (a : ReqArgs) (s : State), s.phase = .idle →
    exec (.reservedOp0 a) s = .next { s with req := reqWord 0 a, status := .illegalOp, trace := s.trace ++ [.done .illegalOp] } ∧
    exec (.reservedOp4 a) s = .next { s with req := reqWord 4 a, status := .illegalOp, trace := s.trace ++ [.done .illegalOp] } ∧
    exec (.reservedOp5 a) s = .next { s with req := reqWord 5 a, status := .illegalOp, trace := s.trace ++ [.done .illegalOp] } ∧
    exec (.reservedOp6 a) s = .next { s with req := reqWord 6 a, status := .illegalOp, trace := s.trace ++ [.done .illegalOp] } ∧
    exec (.reservedOp7 a) s = .next { s with req := reqWord 7 a, status := .illegalOp, trace := s.trace ++ [.done .illegalOp] }

/-- R217: a request presented while an operation is in flight is not taken; it waits behind the others, none is dropped
or merged, and nothing else changes. That the port is a queue is the model's (log 6). -/
def Obligations.RequestsWaitWhileBusy : Prop :=
  ∀ (w : ReqWord) (s : State), s.busy = true →
    exec (decodeRequest w) s = .next { s with requests := s.requests ++ [w] }

/-- What the three operations leave unchanged, presented in IDLE, besides the registers R130, R153 and R185 name: the
requests, the reset input, the bytes on the wire, and which devices there are (the list of devices is the model's, log 11).
FRAME and FRAME_LEN change only when the bus reset answers `Present`, and nothing on the bus changes before: that one
answered `Absent` or with an error leaves the devices' position and selection is DEDUCED (log 12). PAYLOAD, SP and TEMP_Q4 only when the frame
write has answered `Ok`. Each transaction uses up one answer and no other is used (R64). A request that fails check 2 of
R208 changes REQ, STATUS and the trace and nothing else, whatever the next answers are. -/
def Obligations.OperationFrame : Prop :=
  ∀ (a : ReqArgs) (s t : State), s.phase = .idle →
    let present := s.transport.resets.head? = some .present
    let sent := s.transport.writes.head? = some .ok
    let invalid (op : BitVec 3) : State :=
      { s with req := reqWord op a, status := .invalidArgument, trace := s.trace ++ [.done .invalidArgument] }
    (exec (.trigger a) s = .next t ∨ exec (.readTemp a) s = .next t ∨ exec (.setRes a) s = .next t →
      t.requests = s.requests ∧ t.resetLine = s.resetLine ∧ t.bus.line = s.bus.line ∧
      t.bus.devices.map Device.addr = s.bus.devices.map Device.addr ∧
      (¬ present →
        t.frame = s.frame ∧ t.frameLen = s.frameLen ∧ t.payload = s.payload ∧ t.sp = s.sp ∧ t.bus = s.bus ∧
        t.draws = s.draws ∧ t.tempQ4 = s.tempQ4) ∧
      (¬ sent → t.payload = s.payload ∧ t.sp = s.sp ∧ t.tempQ4 = s.tempQ4)) ∧
    (exec (.trigger a) s = .next t →
      (a.busValid = false → t = invalid 1) ∧
      (a.busValid = true →
        t.transport.resets = s.transport.resets.tail ∧ t.transport.reads = s.transport.reads ∧
        (¬ present → t.transport.writes = s.transport.writes) ∧
        (present → t.transport.writes = s.transport.writes.tail))) ∧
    (exec (.readTemp a) s = .next t →
      (a.busValid = false ∨ a.outValid = false → t = invalid 2) ∧
      (a.busValid = true → a.outValid = true →
        t.transport.resets = s.transport.resets.tail ∧
        (¬ present → t.transport.writes = s.transport.writes) ∧
        (present → t.transport.writes = s.transport.writes.tail) ∧
        (¬ (present ∧ sent) → t.transport.reads = s.transport.reads) ∧
        (present → sent → t.transport.reads = s.transport.reads.tail))) ∧
    (exec (.setRes a) s = .next t →
      (a.busValid = false → t = invalid 3) ∧
      (a.busValid = true →
        t.transport.resets = s.transport.resets.tail ∧ t.transport.reads = s.transport.reads ∧
        (¬ present → t.transport.writes = s.transport.writes) ∧
        (present → ¬ sent → t.transport.writes = s.transport.writes.tail) ∧
        (present → sent → t.transport.writes = s.transport.writes.tail.tail)))

/-- R208: whichever word is presented and whatever the transport answers, the operation reports the status of the first
check of R208's list that fails, and OK if none does. -/
def Obligations.FirstFailingCheckIsReported : Prop :=
  ∀ (w : ReqWord) (s : State), s.phase = .idle → s.transport.Ready →
    ∃ t, exec (decodeRequest w) s = .next t ∧ t.phase = .idle ∧ t.status = reported w s.transport

/-- R54, R200: an operation ends if the transport answers. From every state of the invariant with an operation in flight
and every answer there, one step ends it, and the last event is its `Done`.
That it is one step is the model's (log 7). -/
def Obligations.AnsweredOperationsEnd : Prop :=
  ∀ s : State, s.Inv → s.busy = true → s.resetLine = false → s.bus.line = [] → s.transport.Ready →
    ∃ t, step s = .next t ∧ t.phase = .idle ∧ t.trace.getLast? = some (.done t.status)

/-- R54: while the transport does not answer the transaction in flight, the block stays busy and nothing changes, for as
long as that is. An empty script is the model's form of an answer that has not come (log 5). -/
def Obligations.UnansweredOperationsWait : Prop :=
  ∀ (s : State) (n : Nat), s.resetLine = false → s.bus.line = [] →
    (s.phase = .reset ∧ s.transport.resets = []) ∨
    ((s.phase = .sendFrame ∨ s.phase = .sendPayload) ∧ s.transport.writes = []) ∨
    (s.phase = .readSp ∧ s.transport.reads = []) →
    core.run n s = .next s ∧ s.busy = true

/-- R22, R66: one step out of each phase, by the answer of that phase's transaction: nothing while there is none; `Absent` and
`Err` end the operation in IDLE; `Present` leads to SEND_FRAME with the frame of the operation in REQ; `Ok` to the end of
TRIGGER and SET_RES or to the next phase; `Bytes` to DECODE; and DECODE to IDLE. Each with its event, its status and what
the devices have taken (a failed write: some prefix, log 9; a failed payload: log 10). R22 is the spec's own derivation.
That `Present` opens a frame with nobody addressed, and `Absent` or `Err` leaves the devices, is DEDUCED (log 12); that a
failed write leaves the devices where the prefix led is the model's choice (log 26), and so is that an answered read,
`Bytes` or `Err`, leaves them as they were (log 27). After a failed payload the devices that are addressed where the
prefix led hold free values; from where a payload is taken (`th`) those are the ones addressed before. The list of devices
and their CRC registers are logs 11 and 25. -/
def Obligations.PhaseSequences : Prop :=
  ∀ s : State, s.Inv →
    (s.phase = .idle → s.advance = s) ∧
    (s.phase = .reset →
      match s.transport.resets with
      | [] => s.advance = s
      | .absent :: as =>
        s.advance = { s with
          transport := { s.transport with resets := as }, trace := s.trace ++ [.reset .absent, .done .notFound]
          status := .notFound, phase := .idle }
      | .err e :: as =>
        s.advance = { s with
          transport := { s.transport with resets := as }, trace := s.trace ++ [.reset (.err e), .done .transport]
          status := .transport, xerr := some e, phase := .idle }
      | .present :: as =>
        ∃ cmd : Byte,
          (reqOp s.req = 1 ∧ cmd = 0x44 ∨ reqOp s.req = 2 ∧ cmd = 0xBE ∨ reqOp s.req = 3 ∧ cmd = 0x4E) ∧
          s.advance = { s with
            transport := { s.transport with resets := as }, trace := s.trace ++ [.reset .present]
            frame     := buildFrame (targetOf (reqArgs s.req)) cmd
            frameLen  := (buildFrame (targetOf (reqArgs s.req)) cmd).length
            bus       := { s.bus with pos := .addressCommand, selection := .nobody }, phase := .sendFrame }) ∧
    (s.phase = .sendFrame →
      match s.transport.writes with
      | [] => s.advance = s
      | .err e :: as =>
        ∃ k, s.advance = { s with
          transport := { s.transport with writes := as }
          trace     := s.trace ++ [.write s.frame (.err e), .done .transport]
          bus       := s.bus.takeBytes (s.frame.take k), draws := s.draws + 1
          status    := .transport, xerr := some e, phase := .idle }
      | .ok :: as =>
        let u : State := { s with
          transport := { s.transport with writes := as }, trace := s.trace ++ [.write s.frame .ok]
          bus       := s.bus.takeBytes s.frame }
        (reqOp s.req = 1 ∧
          s.advance = { u with status := .ok, phase := .idle, trace := u.trace ++ [.done .ok] }) ∨
        (reqOp s.req = 2 ∧ s.advance = { u with phase := .readSp }) ∨
        (reqOp s.req = 3 ∧
          s.advance = { u with payload := ⟨0x00, 0x00, packCfg (reqArgs s.req).res⟩, phase := .sendPayload })) ∧
    (s.phase = .sendPayload →
      let bytes : List Byte := [0x00, 0x00, packCfg (reqArgs s.req).res]
      match s.transport.writes with
      | [] => s.advance = s
      | .err e :: as =>
        ∃ k n,
          let u := s.bus.takeBytes (bytes.take k)
          s.advance = { s with
            transport := { s.transport with writes := as }
            trace     := s.trace ++ [.write bytes (.err e), .done .transport]
            bus       := { u with devices := freeRegisters u.selection n 0 u.devices }, draws := s.draws + 1
            status    := .transport, xerr := some e, phase := .idle } ∧
          PayloadLost u.selection u.devices s.advance.bus.devices ∧
          (s.bus.pos = .th →
            u.selection = s.bus.selection ∧ PayloadLost s.bus.selection s.bus.devices s.advance.bus.devices)
      | .ok :: as =>
        s.advance = { s with
          transport := { s.transport with writes := as }, trace := s.trace ++ [.write bytes .ok, .done .ok]
          bus       := s.bus.takeBytes bytes, status := .ok, phase := .idle }) ∧
    (s.phase = .readSp →
      match s.transport.reads with
      | [] => s.advance = s
      | .err e :: as =>
        s.advance = { s with
          transport := { s.transport with reads := as }, trace := s.trace ++ [.read 9 (.err e), .done .transport]
          status := .transport, xerr := some e, phase := .idle }
      | .bytes sp :: as =>
        s.advance = { s with
          transport := { s.transport with reads := as }, trace := s.trace ++ [.read 9 (.bytes sp)]
          sp := sp, phase := .decode }) ∧
    (s.phase = .decode →
      match decodeRecord s.sp with
      | .badCrc => s.advance = { s with status := .invalidCrc, phase := .idle, trace := s.trace ++ [.done .invalidCrc] }
      | .badCfg => s.advance = { s with status := .configRange, phase := .idle, trace := s.trace ++ [.done .configRange] }
      | .temp q =>
        s.advance = { s with tempQ4 := some q, status := .ok, phase := .idle, trace := s.trace ++ [.done .ok] })

/-- R66: waiting changes nothing. An operation that had to wait for the transport, and then goes on when further answers `x`
have come, does exactly what it does when all the answers were there when it was presented: status, registers, events
and devices. That going on is one step is the model's (log 7). -/
def Obligations.WaitingChangesNothing : Prop :=
  ∀ (a : ReqArgs) (s t : State) (x : Transport) (i : Instr),
    i = .trigger a ∨ i = .readTemp a ∨ i = .setRes a →
    s.phase = .idle → s.resetLine = false → s.bus.line = [] → exec i s = .next t → t.busy = true →
    step { t with transport := t.transport.append x } = exec i { s with transport := s.transport.append x }

/-! ## Statuses, results and the trace -/

/-- R207: which operation can end with which status, both ways. The table is the spec's own derivation. -/
def Obligations.StatusesOfOperations : Prop :=
  ∀ st : Status,
    ((∃ a s t, s.phase = Phase.idle ∧ exec (.trigger a) s = .next t ∧ t.phase = .idle ∧ t.status = st) ↔
      st = .ok ∨ st = .invalidArgument ∨ st = .notFound ∨ st = .transport) ∧
    ((∃ a s t, s.phase = Phase.idle ∧ exec (.readTemp a) s = .next t ∧ t.phase = .idle ∧ t.status = st) ↔
      st = .ok ∨ st = .invalidArgument ∨ st = .notFound ∨ st = .invalidCrc ∨ st = .transport ∨ st = .configRange) ∧
    ((∃ a s t, s.phase = Phase.idle ∧ exec (.setRes a) s = .next t ∧ t.phase = .idle ∧ t.status = st) ↔
      st = .ok ∨ st = .invalidArgument ∨ st = .notFound ∨ st = .transport) ∧
    ((∃ a s t, s.phase = Phase.idle ∧
        (exec (.reservedOp0 a) s = .next t ∨ exec (.reservedOp4 a) s = .next t ∨ exec (.reservedOp5 a) s = .next t ∨
          exec (.reservedOp6 a) s = .next t ∨ exec (.reservedOp7 a) s = .next t) ∧
        t.phase = .idle ∧ t.status = st) ↔ st = .illegalOp)

/-- R154, R29: a READ_TEMP that ends with any status but OK leaves TEMP_Q4 as it was; no step of the machine, block reset
apart, writes TEMP_Q4 but one that ends with OK and has `Done(OK)` as its last event; the operation it ends is then a
READ_TEMP, from every state of the invariant; and after reset there is no value. -/
def Obligations.TemperatureOnlyOnSuccess : Prop :=
  (∀ (a : ReqArgs) (s t : State), s.phase = .idle → exec (.readTemp a) s = .next t → t.phase = .idle →
    t.status ≠ .ok → t.tempQ4 = s.tempQ4) ∧
  (∀ s t : State, s.resetLine = false → step s = .next t → t.tempQ4 ≠ s.tempQ4 →
    t.status = .ok ∧ t.phase = .idle ∧ t.trace.getLast? = some (.done .ok) ∧ (s.Inv → reqOp t.req = 2)) ∧
  State.reset.tempQ4 = none

/-- R27, R205: XERR is written, block reset apart, only together with STATUS becoming TRANSPORT, and then it holds exactly
the value of the answer just observed. -/
def Obligations.ErrorValueForwardedVerbatim : Prop :=
  ∀ s t : State, s.resetLine = false → step s = .next t → t.xerr ≠ s.xerr →
    t.status = .transport ∧ t.phase = .idle ∧
    ∃ e ev, t.xerr = some e ∧ t.trace.getLast? = some (.done .transport) ∧
      t.trace.dropLast.getLast? = some ev ∧
      (ev = .reset (.err e) ∨ (∃ bytes, ev = .write bytes (.err e)) ∨ ev = .read 9 (.err e))

/-- R251, R210: while the block is busy after a step, STATUS, XERR and TEMP_Q4 still hold what they held, block reset
apart. -/
def Obligations.OutputsHeldWhileBusy : Prop :=
  ∀ s t : State, s.resetLine = false → step s = .next t → t.busy = true →
    t.status = s.status ∧ t.xerr = s.xerr ∧ t.tempQ4 = s.tempQ4

/-- R93, R88, R63: every step only adds events, and of those every write is a frame whose byte 0 is 0xCC or 0x55 and whose
command byte is 0x44, 0x4E or 0xBE, or a payload; every read is of 9 bytes. That there are no other transactions is R63,
which the spec marks as its own derivation. -/
def Obligations.OnlyFramesAndPayloadsAreWritten : Prop :=
  ∀ s t : State, s.Inv → step s = .next t →
    ∃ evs, t.trace = s.trace ++ evs ∧ ∀ e ∈ evs, e.Legal

/-! ## What a run does not depend on -/

/-- R39: nothing carries from one operation to the next in REQ, FRAME, PAYLOAD and SP. Forgetting the buffers that have no
meaning in the current phase before a step, or after it, gives the same. So the values the model gives them at reset
(log 3, 4) bear on nothing. -/
def Obligations.DeadBuffersDoNotMatter : Prop :=
  ∀ s : State, mapNext State.forgetDead (step s) = mapNext State.forgetDead (step s.forgetDead)

/-- R9, R205: the block never inspects an error value. For any two types of error values, of which nothing is assumed, and
any map from one to the other: renaming all error values by it commutes with every instruction and every step. `exec` and
`step` are that machine at `XportErr`, the type that `core` takes for R9's parameter (log 1). -/
def Obligations.ErrorValuesAreNotInspected : Prop :=
  (∀ (E F : Type) (f : E → F),
    (∀ (i : Instr) (s : State E), execOf i (s.rename f) = mapNext (State.rename f) (execOf i s)) ∧
    ∀ s : State E, stepOf (s.rename f) = mapNext (State.rename f) (stepOf s)) ∧
  (∀ (i : Instr) (s : State), exec i s = execOf i s) ∧
  (∀ s : State, step s = stepOf s) ∧
  ∀ (f : XportErr → XportErr) (s : State), step (s.rename f) = mapNext (State.rename f) (step s)

/-- R80: the fields an operation ignores have no effect on any event, register or status, REQ itself apart: `res` and
`out_valid` for TRIGGER, `res` for READ_TEMP, `out_valid` for SET_RES, and `addr` where `addr_valid` is 0. -/
def Obligations.IgnoredFieldsHaveNoEffect : Prop :=
  ∀ (a b : ReqArgs) (s : State), s.phase = .idle →
    a.addrValid = b.addrValid → a.busValid = b.busValid → (a.addrValid = true → a.addr = b.addr) →
    let blank : State → State := fun t => { t with req := 0 }
    mapNext blank (exec (.trigger a) s) = mapNext blank (exec (.trigger b) s) ∧
    (a.outValid = b.outValid → mapNext blank (exec (.readTemp a) s) = mapNext blank (exec (.readTemp b) s)) ∧
    (a.res = b.res → mapNext blank (exec (.setRes a) s) = mapNext blank (exec (.setRes b) s))

/-! ## The devices -/

/-- The five wire commands, in every state: what each makes of the device side, and that no register of the block, no
request, no answer and no event is touched (R115, R116, R131, R152, R184; R52). The device side is the model's as far as
log 11, 12, 16, 24 and 25 say (the count a conversion leaves is a free value, log 16), and that the commands have this effect
in every state, whatever position the devices are at, is the model's choice (log 22). -/
def Obligations.WireCommandsRun : Prop :=
  ∀ s : State,
    exec .skipRom s = .next { s with bus := { s.bus with pos := .functionCommand, selection := .everybody } } ∧
    exec .matchRom s = .next { s with bus := { s.bus with pos := .address [], selection := .nobody } } ∧
    exec .writeScratchpad s = .next { s with bus := { s.bus with pos := .th } } ∧
    exec .readScratchpad s = .next { s with bus := { s.bus with pos := .supplying } } ∧
    exec .convertT s = .next
      { s with
          bus := { s.bus with
            pos     := .closed
            devices := s.bus.devices.map fun d =>
              let count := Config.conversionResult d.addr d.conversions
              if s.bus.selection.covers d then
                { d with
                    registers   := { d.registers with
                      tempLsb := count.extractLsb' 0 8, tempMsb := count.extractLsb' 8 8 }.withCrc
                    conversions := d.conversions + 1 }
              else d } }

/-- The four configuration bytes of SET_RES (R181, R184), in every state: after two threshold bytes the addressed devices
take all three. That they take them all at the third byte is DEDUCED (log 15), as is that their CRC register follows
(log 25), on the list of devices that is the model's (log 11). Elsewhere (the model's choice, log 22) they take the configuration.
Nothing else changes. -/
def Obligations.WrittenConfigurationsRun : Prop :=
  ∀ (s : State) (i : Instr) (cfg : Byte),
    (i = .cfg9Bit ∧ cfg = 0x1F) ∨ (i = .cfg10Bit ∧ cfg = 0x3F) ∨ (i = .cfg11Bit ∧ cfg = 0x5F) ∨
      (i = .cfg12Bit ∧ cfg = 0x7F) →
    (∀ th tl, s.bus.pos = .configuration th tl →
      exec i s = .next
        { s with
            bus := { s.bus with
              pos     := .closed
              devices := s.bus.devices.map fun d =>
                if s.bus.selection.covers d then
                  { d with registers := { d.registers with th := th, tl := tl, configuration := cfg }.withCrc }
                else d } }) ∧
    ((∀ th tl, s.bus.pos ≠ .configuration th tl) →
      exec i s = .next
        { s with
            bus := { s.bus with
              pos     := .closed
              devices := s.bus.devices.map fun d =>
                if s.bus.selection.covers d then
                  { d with registers := { d.registers with configuration := cfg }.withCrc }
                else d } })

/-- R116, R58: after MATCH_ROM the 8 address bytes, as a frame carries them, address exactly the device whose address they
are, and the command byte comes next; no device has changed. The device side is the model's (log 11, 12). -/
def Obligations.MatchRomAddressesOneDevice : Prop :=
  ∀ (u : BusSide) (a : Addr),
    u.matchRom.takeBytes (addrBytes a) = { u with pos := .functionCommand, selection := .device a } ∧
    ∀ d : Device, (Selection.device a).covers d = true ↔ d.addr = a

/-- R131, R115, R116: a TRIGGER that ends with OK makes every device (broadcast), or the device with the request's address
(addressed), begin one conversion, which leaves its thresholds, configuration and reserved bytes, and changes no other
device. The list of devices and the count are the model's (log 11, 16), the CRC register is DEDUCED (log 25); what the temperature registers
hold is a free value (log 16). -/
def Obligations.TriggerStartsConversions : Prop :=
  ∀ (a : ReqArgs) (s : State) (rs : List ResetAnswer) (ws : List WriteAnswer),
    s.phase = .idle → a.busValid = true → s.transport.resets = .present :: rs → s.transport.writes = .ok :: ws →
    ∃ t, exec (.trigger a) s = .next t ∧ t.status = .ok ∧ t.bus.devices.length = s.bus.devices.length ∧
      ∀ (k : Nat) (d d' : Device), s.bus.devices[k]? = some d → t.bus.devices[k]? = some d' →
        (a.addrValid = true ∧ d.addr ≠ a.addr → d' = d) ∧
        (a.addrValid = false ∨ d.addr = a.addr →
          d'.addr = d.addr ∧ d'.conversions = d.conversions + 1 ∧
          (∃ lsb msb, d'.registers = { d.registers with tempLsb := lsb, tempMsb := msb }.withCrc))

/-- R184, R186, R248: a SET_RES that ends with OK sets, in every device (broadcast) or in the device with the request's
address (addressed), both thresholds to 0x00 whatever they were and the configuration to that of `res`; other devices
are unchanged, and no conversion begins.
The list of devices is the model's, and that the three bytes are taken together is DEDUCED, as is the CRC register (log 11, 15, 25). -/
def Obligations.SetResConfiguresDevices : Prop :=
  ∀ (a : ReqArgs) (s : State) (rs : List ResetAnswer) (ws : List WriteAnswer),
    s.phase = .idle → a.busValid = true → s.transport.resets = .present :: rs →
    s.transport.writes = .ok :: .ok :: ws →
    ∃ t, exec (.setRes a) s = .next t ∧ t.status = .ok ∧
      t.bus.devices = s.bus.devices.map fun d =>
        if a.addrValid = false ∨ d.addr = a.addr then
          { d with
              registers := { d.registers with
                th := 0x00, tl := 0x00, configuration := (a.res.setWidth 8 <<< 5) ||| 0x1F }.withCrc }
        else d

/-- R52: a TRIGGER, READ_TEMP or SET_RES whose frame write fails leaves the device side as some prefix of the frame leaves
it: no device has changed, unless the whole frame of a TRIGGER was sent. The prefix is a free value (log 9). The
list of devices is the model's (log 11); that the bus reset opened a frame with nobody addressed is DEDUCED (log 12); that
the devices stay where the prefix left them is the model's choice (log 26). -/
def Obligations.FailedFrameMayBeSentInPart : Prop :=
  ∀ (a : ReqArgs) (s : State) (rs : List ResetAnswer) (ws : List WriteAnswer) (e : XportErr),
    s.phase = .idle → a.busValid = true → s.transport.resets = .present :: rs →
    s.transport.writes = .err e :: ws →
    (∃ t k, exec (.trigger a) s = .next t ∧ t.status = .transport ∧
      t.bus = s.bus.openFrame.takeBytes ((buildFrame (targetOf a) 0x44).take k) ∧
      (t.bus.devices ≠ s.bus.devices → (buildFrame (targetOf a) 0x44).length ≤ k)) ∧
    (a.outValid = true → ∃ t k, exec (.readTemp a) s = .next t ∧ t.status = .transport ∧
      t.bus = s.bus.openFrame.takeBytes ((buildFrame (targetOf a) 0xBE).take k) ∧
      t.bus.devices = s.bus.devices) ∧
    (∃ t k, exec (.setRes a) s = .next t ∧ t.status = .transport ∧
      t.bus = s.bus.openFrame.takeBytes ((buildFrame (targetOf a) 0x4E).take k) ∧
      t.bus.devices = s.bus.devices)

/-- R249, R52: a SET_RES whose payload write fails leaves the devices after some prefix of the payload, from none of it to
all of it; it may leave anything in the thresholds and the configuration of the addressed devices, and touches no other
device and no other part of a device but its CRC register. The prefix is a free value, and what the addressed ones hold
is (log 9, 10); that they stay where the prefix left them is the model's choice (log 26), the CRC register DEDUCED (log 25). -/
def Obligations.FailedPayloadReachesOnlyTheAddressed : Prop :=
  ∀ (a : ReqArgs) (s : State) (rs : List ResetAnswer) (ws : List WriteAnswer) (e : XportErr),
    s.phase = .idle → a.busValid = true → s.transport.resets = .present :: rs →
    s.transport.writes = .ok :: .err e :: ws →
    ∃ t, exec (.setRes a) s = .next t ∧ t.status = .transport ∧ t.xerr = some e ∧
      (t.bus.pos = .th ∨ t.bus.pos = .tl 0x00 ∨ t.bus.pos = .configuration 0x00 0x00 ∨ t.bus.pos = .closed) ∧
      t.bus.devices.length = s.bus.devices.length ∧
      ∀ (k : Nat) (d d' : Device), s.bus.devices[k]? = some d → t.bus.devices[k]? = some d' →
        d'.addr = d.addr ∧ d'.conversions = d.conversions ∧
        (a.addrValid = true → d.addr ≠ a.addr → d' = d) ∧
        ∃ th tl cfg crc, d'.registers =
          { d.registers with th := th, tl := tl, configuration := cfg, crc := crc }

/-- R35, R37: the block writes a device's thresholds and configuration only through WRITE_SCRATCHPAD, that is by SET_RES:
TRIGGER, READ_TEMP and the reserved requests leave them, and READ_TEMP leaves the devices altogether.
The list of devices is the model's (log 11). -/
def Obligations.OnlySetResWritesDeviceRegisters : Prop :=
  ∀ (a : ReqArgs) (s t : State), s.phase = .idle →
    (exec (.readTemp a) s = .next t ∨ exec (.reservedOp0 a) s = .next t ∨ exec (.reservedOp4 a) s = .next t ∨
      exec (.reservedOp5 a) s = .next t ∨ exec (.reservedOp6 a) s = .next t ∨ exec (.reservedOp7 a) s = .next t →
      t.bus.devices = s.bus.devices) ∧
    (exec (.trigger a) s = .next t →
      t.bus.devices.map (fun d => (d.addr, d.registers.th, d.registers.tl, d.registers.configuration)) =
        s.bus.devices.map (fun d => (d.addr, d.registers.th, d.registers.tl, d.registers.configuration)))

/-- R52: the block's own state does not depend on the bytes the devices take: a step that has a byte on the wire to take
changes the device side and nothing else. The wire is the model's (log 13). -/
def Obligations.WireStepsLeaveTheBlock : Prop :=
  ∀ s t : State, s.resetLine = false → s.bus.line ≠ [] → step s = .next t →
    t = { s with bus := t.bus } ∧ t.bus.line = s.bus.line.tail ∧
    t.bus.devices.map Device.addr = s.bus.devices.map Device.addr

/-! ## The scratchpad codec -/

/-- The five rows of a configuration byte as READ_TEMP decodes it (R145 to R148, R155): with a CRC match the rows 0 to 3 write
the count masked with 0x07, 0x03, 0x01 and 0x00 and end with OK, the fifth ends with CONFIG_RANGE; without one every row
ends with INVALID_CRC. Nothing else changes. That a row runs so in every state and phase, and with an operand byte that
need not be SP's, is the model's choice (log 22); DecodeEndsTheRead says the same of DECODE alone. -/
def Obligations.ReadConfigurationsRun : Prop :=
  ∀ (s : State) (cfg : Byte) (i : Instr) (mask : Byte),
    (i = .cfgReadIdx0 cfg ∧ mask = 0x07) ∨ (i = .cfgReadIdx1 cfg ∧ mask = 0x03) ∨
      (i = .cfgReadIdx2 cfg ∧ mask = 0x01) ∨ (i = .cfgReadIdx3 cfg ∧ mask = 0x00) →
    (crc8 s.sp.firstEight = s.sp.crc →
      exec i s = .next
        { s with tempQ4 := some (s.sp.tempMsb ++ (s.sp.tempLsb &&& ~~~mask)), status := .ok, phase := .idle,
                 trace := s.trace ++ [.done .ok] } ∧
      exec (.cfgReadOutOfContract cfg) s = .next
        { s with status := .configRange, phase := .idle, trace := s.trace ++ [.done .configRange] }) ∧
    (crc8 s.sp.firstEight ≠ s.sp.crc →
      exec i s = .next { s with status := .invalidCrc, phase := .idle, trace := s.trace ++ [.done .invalidCrc] } ∧
      exec (.cfgReadOutOfContract cfg) s = .next
        { s with status := .invalidCrc, phase := .idle, trace := s.trace ++ [.done .invalidCrc] })

/-- R145, R147, R155: a step in DECODE, with nothing on the wire and no block reset. The CRC check comes first; on a match the
index is the record's own `configuration >> 5`: 0 to 3 select the mask that is inverted and applied to `temp_lsb` and not
to `temp_msb`, and 4 to 7, which is bit 7 set, end with CONFIG_RANGE and write no temperature. -/
def Obligations.DecodeEndsTheRead : Prop :=
  ∀ s : State, s.resetLine = false → s.bus.line = [] → s.phase = .decode →
    (crc8 s.sp.firstEight ≠ s.sp.crc →
      step s = .next { s with status := .invalidCrc, phase := .idle, trace := s.trace ++ [.done .invalidCrc] }) ∧
    (crc8 s.sp.firstEight = s.sp.crc →
      (∀ mask : Byte,
        (s.sp.configuration >>> 5 = 0 ∧ mask = 0x07) ∨ (s.sp.configuration >>> 5 = 1 ∧ mask = 0x03) ∨
          (s.sp.configuration >>> 5 = 2 ∧ mask = 0x01) ∨ (s.sp.configuration >>> 5 = 3 ∧ mask = 0x00) →
        step s = .next
          { s with tempQ4 := some (s.sp.tempMsb ++ (s.sp.tempLsb &&& ~~~mask)), status := .ok, phase := .idle,
                   trace := s.trace ++ [.done .ok] }) ∧
      ((3 : Byte) < s.sp.configuration >>> 5 →
        step s = .next { s with status := .configRange, phase := .idle, trace := s.trace ++ [.done .configRange] })) ∧
    ((3 : Byte) < s.sp.configuration >>> 5 ↔ s.sp.configuration.getLsbD 7 = true)

/-- R144, R145: the byte read in DECODE and the DECODE function agree: running the row of the record's configuration byte
is what READ_TEMP does in DECODE; and the index is out of contract exactly when bit 7 is 1. That a step in DECODE reads
this byte as its instruction is the model's choice (log 7), and so is that executing the row has this effect in every state
and phase, which the first clause says (log 22). -/
def Obligations.ConfigurationByteDecidesTheDecode : Prop :=
  ∀ s : State,
    exec (decodeConfigRead s.sp.configuration) s = .next s.stepDecode ∧
    (3 < cfgIndex s.sp.configuration ↔ s.sp.configuration.getLsbD 7 = true) ∧
    (decodeRecord s.sp = .badCfg ↔ crc8 s.sp.firstEight = s.sp.crc ∧ s.sp.configuration.getLsbD 7 = true)

/-- R141: the three properties of `crc8`: a sequence with its own CRC appended has CRC 0; the CRC of a bytewise sum is the
sum of the CRCs; every single-bit change in the 9 bytes of a record that passed the check makes it fail.
R141 is the spec's own derivation; the bit order is PRESUMED (log 18). -/
def Obligations.CrcProperties : Prop :=
  (∀ s : List Byte, crc8 (s ++ [crc8 s]) = 0x00) ∧
  (∀ s t : List Byte, s.length = t.length → crc8 (List.zipWith (· ^^^ ·) s t) = crc8 s ^^^ crc8 t) ∧
  (∀ (sp sp' : Scratchpad) (k j : Nat), crcOk sp = true → k < 9 → j < 8 →
    sp'.bytes = sp.bytes.modify k (· ^^^ (1#8 <<< j)) → crcOk sp' = false)

/-- R7, R140: the reflected algorithm with 0x8C is division by the polynomial `x^8 + x^5 + x^4 + 1` with seed 0: the CRC of
a byte sequence, read from bit 0 up as the coefficients of `x^7` down, is the remainder of its bits.
The bit order is PRESUMED (log 18). -/
def Obligations.CrcIsThePolynomialRemainder : Prop :=
  ∀ s : List Byte, (crc8 s).reverse = polyRemainder (crcBitsOf s)

/-- R157: masking rounds toward minus infinity: with `k` masked bits the count is `floor(raw / 2^k) * 2^k`, where `raw` is
the unmasked count. R157 is the spec's own derivation. -/
def Obligations.MaskingRoundsDown : Prop :=
  ∀ (sp : Scratchpad) (idx : BitVec 3) (mask : Byte) (k : Nat),
    (idx = 0 ∧ k = 3) ∨ (idx = 1 ∧ k = 2) ∨ (idx = 2 ∧ k = 1) ∨ (idx = 3 ∧ k = 0) →
    lsbMask idx = some mask →
    (countOf mask sp).toInt = ((sp.tempMsb ++ sp.tempLsb : Count).toInt).fdiv (2 ^ k) * 2 ^ k

/-- R158, R148: no range is checked: at 12 bits every 16-bit count is returned as it stands.
R158 is the spec's own derivation. -/
def Obligations.EveryCountIsReturned : Prop :=
  ∀ q : Count, ∃ sp : Scratchpad, decodeRecord sp = .temp q ∧ sp.tempMsb ++ sp.tempLsb = q ∧
    -32768 ≤ q.toInt ∧ q.toInt ≤ 32767

/-- R150: the binary32 view is exact for every count: its value is `count / 16`; no infinity or NaN (the exponent field is
never 255), no subnormal, and 0 gives the pattern of +0.0. R150 is the spec's own derivation (log 19).
R30, R31, R149: TEMP_C is TEMP_Q4 / 16 exactly and TEMP_F32 is that binary32 value; each of the two views holds no value
exactly when TEMP_Q4 holds none. -/
def Obligations.BinaryViewIsExact : Prop :=
  (∀ q : Count,
    f32Value (f32OfCount q) = (q.toInt : Rat) / 16 ∧ (f32OfCount q).extractLsb' 23 8 ≠ 255 ∧
    ((f32OfCount q).extractLsb' 23 8 = 0 ↔ q = 0)) ∧
  f32OfCount 0 = 0x00000000 ∧
  ∀ s : State,
    (s.tempC = none ↔ s.tempQ4 = none) ∧ (s.tempF32 = none ↔ s.tempQ4 = none) ∧
    ∀ q, s.tempQ4 = some q → s.tempC = some ((q.toInt : Rat) / 16) ∧ s.tempF32 = some (f32OfCount q)

/-! ## The resolution configurator -/

/-- R181: PACK_CFG, the whole table, with its bits. R181 is the spec's own derivation. -/
def Obligations.PackedConfigurations : Prop :=
  packCfg 0 = 0x1F ∧ packCfg 1 = 0x3F ∧ packCfg 2 = 0x5F ∧ packCfg 3 = 0x7F ∧
  ∀ res : BitVec 2, packCfg res = (0#1 ++ res ++ 0b11111#5 : BitVec 8)

/-- R182: pack and decode agree: the byte SET_RES writes has its code as index and bit 7 clear, so a record holding it
decodes with that resolution's mask and never with CONFIG_RANGE. R182 is the spec's own derivation. -/
def Obligations.PackAndDecodeAgree : Prop :=
  ∀ (res : BitVec 2) (sp : Scratchpad), sp.configuration = packCfg res →
    packCfg res >>> 5 = res.setWidth 8 ∧ (packCfg res).getLsbD 7 = false ∧ decodeRecord sp ≠ .badCfg ∧
    (∀ mask, lsbMask (res.setWidth 3) = some mask → crcOk sp = true →
      decodeRecord sp = .temp (countOf mask sp))
end

