-- ==== Sys2Proof/Laws/State.lean ====
section
/-! SUPPORT. One lemma per field per named update of the state, true by definition, so that no later proof unfolds a
record update. -/

namespace Sys2Proof.Machine

variable {E : Type}

variable (s : State E)

/-! ### `State.enter`: R21 -/

@[simp] theorem State.enter_phase (p : Phase) : (s.enter p).phase = p := rfl
@[simp] theorem State.enter_req (p : Phase) : (s.enter p).req = s.req := rfl
@[simp] theorem State.enter_frame (p : Phase) : (s.enter p).frame = s.frame := rfl
@[simp] theorem State.enter_frameLen (p : Phase) : (s.enter p).frameLen = s.frameLen := rfl
@[simp] theorem State.enter_payload (p : Phase) : (s.enter p).payload = s.payload := rfl
@[simp] theorem State.enter_sp (p : Phase) : (s.enter p).sp = s.sp := rfl
@[simp] theorem State.enter_status (p : Phase) : (s.enter p).status = s.status := rfl
@[simp] theorem State.enter_xerr (p : Phase) : (s.enter p).xerr = s.xerr := rfl
@[simp] theorem State.enter_tempQ4 (p : Phase) : (s.enter p).tempQ4 = s.tempQ4 := rfl
@[simp] theorem State.enter_requests (p : Phase) : (s.enter p).requests = s.requests := rfl
@[simp] theorem State.enter_resetLine (p : Phase) : (s.enter p).resetLine = s.resetLine := rfl
@[simp] theorem State.enter_transport (p : Phase) : (s.enter p).transport = s.transport := rfl
@[simp] theorem State.enter_trace (p : Phase) : (s.enter p).trace = s.trace := rfl
@[simp] theorem State.enter_bus (p : Phase) : (s.enter p).bus = s.bus := rfl
@[simp] theorem State.enter_draws (p : Phase) : (s.enter p).draws = s.draws := rfl

/-! ### `State.latch`: R32 -/

@[simp] theorem State.latch_phase (w : ReqWord) : (s.latch w).phase = s.phase := rfl
@[simp] theorem State.latch_req (w : ReqWord) : (s.latch w).req = w := rfl
@[simp] theorem State.latch_frame (w : ReqWord) : (s.latch w).frame = s.frame := rfl
@[simp] theorem State.latch_frameLen (w : ReqWord) : (s.latch w).frameLen = s.frameLen := rfl
@[simp] theorem State.latch_payload (w : ReqWord) : (s.latch w).payload = s.payload := rfl
@[simp] theorem State.latch_sp (w : ReqWord) : (s.latch w).sp = s.sp := rfl
@[simp] theorem State.latch_status (w : ReqWord) : (s.latch w).status = s.status := rfl
@[simp] theorem State.latch_xerr (w : ReqWord) : (s.latch w).xerr = s.xerr := rfl
@[simp] theorem State.latch_tempQ4 (w : ReqWord) : (s.latch w).tempQ4 = s.tempQ4 := rfl
@[simp] theorem State.latch_requests (w : ReqWord) : (s.latch w).requests = s.requests := rfl
@[simp] theorem State.latch_resetLine (w : ReqWord) : (s.latch w).resetLine = s.resetLine := rfl
@[simp] theorem State.latch_transport (w : ReqWord) : (s.latch w).transport = s.transport := rfl
@[simp] theorem State.latch_trace (w : ReqWord) : (s.latch w).trace = s.trace := rfl
@[simp] theorem State.latch_bus (w : ReqWord) : (s.latch w).bus = s.bus := rfl
@[simp] theorem State.latch_draws (w : ReqWord) : (s.latch w).draws = s.draws := rfl

/-! ### `State.withRequests`: the request port -/

@[simp] theorem State.withRequests_phase (ws : List ReqWord) : (s.withRequests ws).phase = s.phase := rfl
@[simp] theorem State.withRequests_req (ws : List ReqWord) : (s.withRequests ws).req = s.req := rfl
@[simp] theorem State.withRequests_frame (ws : List ReqWord) : (s.withRequests ws).frame = s.frame := rfl
@[simp] theorem State.withRequests_frameLen (ws : List ReqWord) : (s.withRequests ws).frameLen = s.frameLen := rfl
@[simp] theorem State.withRequests_payload (ws : List ReqWord) : (s.withRequests ws).payload = s.payload := rfl
@[simp] theorem State.withRequests_sp (ws : List ReqWord) : (s.withRequests ws).sp = s.sp := rfl
@[simp] theorem State.withRequests_status (ws : List ReqWord) : (s.withRequests ws).status = s.status := rfl
@[simp] theorem State.withRequests_xerr (ws : List ReqWord) : (s.withRequests ws).xerr = s.xerr := rfl
@[simp] theorem State.withRequests_tempQ4 (ws : List ReqWord) : (s.withRequests ws).tempQ4 = s.tempQ4 := rfl
@[simp] theorem State.withRequests_requests (ws : List ReqWord) : (s.withRequests ws).requests = ws := rfl
@[simp] theorem State.withRequests_resetLine (ws : List ReqWord) : (s.withRequests ws).resetLine = s.resetLine := rfl
@[simp] theorem State.withRequests_transport (ws : List ReqWord) : (s.withRequests ws).transport = s.transport := rfl
@[simp] theorem State.withRequests_trace (ws : List ReqWord) : (s.withRequests ws).trace = s.trace := rfl
@[simp] theorem State.withRequests_bus (ws : List ReqWord) : (s.withRequests ws).bus = s.bus := rfl
@[simp] theorem State.withRequests_draws (ws : List ReqWord) : (s.withRequests ws).draws = s.draws := rfl

/-! ### `State.withBus`: only the device side -/

@[simp] theorem State.withBus_phase (u : BusSide) : (s.withBus u).phase = s.phase := rfl
@[simp] theorem State.withBus_req (u : BusSide) : (s.withBus u).req = s.req := rfl
@[simp] theorem State.withBus_frame (u : BusSide) : (s.withBus u).frame = s.frame := rfl
@[simp] theorem State.withBus_frameLen (u : BusSide) : (s.withBus u).frameLen = s.frameLen := rfl
@[simp] theorem State.withBus_payload (u : BusSide) : (s.withBus u).payload = s.payload := rfl
@[simp] theorem State.withBus_sp (u : BusSide) : (s.withBus u).sp = s.sp := rfl
@[simp] theorem State.withBus_status (u : BusSide) : (s.withBus u).status = s.status := rfl
@[simp] theorem State.withBus_xerr (u : BusSide) : (s.withBus u).xerr = s.xerr := rfl
@[simp] theorem State.withBus_tempQ4 (u : BusSide) : (s.withBus u).tempQ4 = s.tempQ4 := rfl
@[simp] theorem State.withBus_requests (u : BusSide) : (s.withBus u).requests = s.requests := rfl
@[simp] theorem State.withBus_resetLine (u : BusSide) : (s.withBus u).resetLine = s.resetLine := rfl
@[simp] theorem State.withBus_transport (u : BusSide) : (s.withBus u).transport = s.transport := rfl
@[simp] theorem State.withBus_trace (u : BusSide) : (s.withBus u).trace = s.trace := rfl
@[simp] theorem State.withBus_bus (u : BusSide) : (s.withBus u).bus = u := rfl
@[simp] theorem State.withBus_draws (u : BusSide) : (s.withBus u).draws = s.draws := rfl

/-! ### `State.endWith`: R210 -/

@[simp] theorem State.endWith_phase (st : Status) : (s.endWith st).phase = .idle := rfl
@[simp] theorem State.endWith_req (st : Status) : (s.endWith st).req = s.req := rfl
@[simp] theorem State.endWith_frame (st : Status) : (s.endWith st).frame = s.frame := rfl
@[simp] theorem State.endWith_frameLen (st : Status) : (s.endWith st).frameLen = s.frameLen := rfl
@[simp] theorem State.endWith_payload (st : Status) : (s.endWith st).payload = s.payload := rfl
@[simp] theorem State.endWith_sp (st : Status) : (s.endWith st).sp = s.sp := rfl
@[simp] theorem State.endWith_status (st : Status) : (s.endWith st).status = st := rfl
@[simp] theorem State.endWith_xerr (st : Status) : (s.endWith st).xerr = s.xerr := rfl
@[simp] theorem State.endWith_tempQ4 (st : Status) : (s.endWith st).tempQ4 = s.tempQ4 := rfl
@[simp] theorem State.endWith_requests (st : Status) : (s.endWith st).requests = s.requests := rfl
@[simp] theorem State.endWith_resetLine (st : Status) : (s.endWith st).resetLine = s.resetLine := rfl
@[simp] theorem State.endWith_transport (st : Status) : (s.endWith st).transport = s.transport := rfl
@[simp] theorem State.endWith_trace (st : Status) : (s.endWith st).trace = s.trace ++ [.done st] := rfl
@[simp] theorem State.endWith_bus (st : Status) : (s.endWith st).bus = s.bus := rfl
@[simp] theorem State.endWith_draws (st : Status) : (s.endWith st).draws = s.draws := rfl

/-! ### `State.endTransport`: R205, R210 -/

@[simp] theorem State.endTransport_phase (e : E) : (s.endTransport e).phase = .idle := rfl
@[simp] theorem State.endTransport_req (e : E) : (s.endTransport e).req = s.req := rfl
@[simp] theorem State.endTransport_frame (e : E) : (s.endTransport e).frame = s.frame := rfl
@[simp] theorem State.endTransport_frameLen (e : E) : (s.endTransport e).frameLen = s.frameLen := rfl
@[simp] theorem State.endTransport_payload (e : E) : (s.endTransport e).payload = s.payload := rfl
@[simp] theorem State.endTransport_sp (e : E) : (s.endTransport e).sp = s.sp := rfl
@[simp] theorem State.endTransport_status (e : E) : (s.endTransport e).status = .transport := rfl
@[simp] theorem State.endTransport_xerr (e : E) : (s.endTransport e).xerr = some e := rfl
@[simp] theorem State.endTransport_tempQ4 (e : E) : (s.endTransport e).tempQ4 = s.tempQ4 := rfl
@[simp] theorem State.endTransport_requests (e : E) : (s.endTransport e).requests = s.requests := rfl
@[simp] theorem State.endTransport_resetLine (e : E) : (s.endTransport e).resetLine = s.resetLine := rfl
@[simp] theorem State.endTransport_transport (e : E) : (s.endTransport e).transport = s.transport := rfl
@[simp] theorem State.endTransport_trace (e : E) :
    (s.endTransport e).trace = s.trace ++ [.done .transport] := rfl
@[simp] theorem State.endTransport_bus (e : E) : (s.endTransport e).bus = s.bus := rfl
@[simp] theorem State.endTransport_draws (e : E) : (s.endTransport e).draws = s.draws := rfl

/-! ### `State.finishRead`: R153 -/

@[simp] theorem State.finishRead_phase (q : Count) : (s.finishRead q).phase = .idle := rfl
@[simp] theorem State.finishRead_req (q : Count) : (s.finishRead q).req = s.req := rfl
@[simp] theorem State.finishRead_frame (q : Count) : (s.finishRead q).frame = s.frame := rfl
@[simp] theorem State.finishRead_frameLen (q : Count) : (s.finishRead q).frameLen = s.frameLen := rfl
@[simp] theorem State.finishRead_payload (q : Count) : (s.finishRead q).payload = s.payload := rfl
@[simp] theorem State.finishRead_sp (q : Count) : (s.finishRead q).sp = s.sp := rfl
@[simp] theorem State.finishRead_status (q : Count) : (s.finishRead q).status = .ok := rfl
@[simp] theorem State.finishRead_xerr (q : Count) : (s.finishRead q).xerr = s.xerr := rfl
@[simp] theorem State.finishRead_tempQ4 (q : Count) : (s.finishRead q).tempQ4 = some q := rfl
@[simp] theorem State.finishRead_requests (q : Count) : (s.finishRead q).requests = s.requests := rfl
@[simp] theorem State.finishRead_resetLine (q : Count) : (s.finishRead q).resetLine = s.resetLine := rfl
@[simp] theorem State.finishRead_transport (q : Count) : (s.finishRead q).transport = s.transport := rfl
@[simp] theorem State.finishRead_trace (q : Count) : (s.finishRead q).trace = s.trace ++ [.done .ok] := rfl
@[simp] theorem State.finishRead_bus (q : Count) : (s.finishRead q).bus = s.bus := rfl
@[simp] theorem State.finishRead_draws (q : Count) : (s.finishRead q).draws = s.draws := rfl

/-! ### `State.didReset`: R51, R57 -/

@[simp] theorem State.didReset_phase (a : ResetAnswer E) (as : List (ResetAnswer E)) :
    (s.didReset a as).phase = s.phase := rfl
@[simp] theorem State.didReset_req (a : ResetAnswer E) (as : List (ResetAnswer E)) : (s.didReset a as).req = s.req := rfl
@[simp] theorem State.didReset_frame (a : ResetAnswer E) (as : List (ResetAnswer E)) :
    (s.didReset a as).frame = s.frame := rfl
@[simp] theorem State.didReset_frameLen (a : ResetAnswer E) (as : List (ResetAnswer E)) :
    (s.didReset a as).frameLen = s.frameLen := rfl
@[simp] theorem State.didReset_payload (a : ResetAnswer E) (as : List (ResetAnswer E)) :
    (s.didReset a as).payload = s.payload := rfl
@[simp] theorem State.didReset_sp (a : ResetAnswer E) (as : List (ResetAnswer E)) : (s.didReset a as).sp = s.sp := rfl
@[simp] theorem State.didReset_status (a : ResetAnswer E) (as : List (ResetAnswer E)) :
    (s.didReset a as).status = s.status := rfl
@[simp] theorem State.didReset_xerr (a : ResetAnswer E) (as : List (ResetAnswer E)) : (s.didReset a as).xerr = s.xerr := rfl
@[simp] theorem State.didReset_tempQ4 (a : ResetAnswer E) (as : List (ResetAnswer E)) :
    (s.didReset a as).tempQ4 = s.tempQ4 := rfl
@[simp] theorem State.didReset_requests (a : ResetAnswer E) (as : List (ResetAnswer E)) :
    (s.didReset a as).requests = s.requests := rfl
@[simp] theorem State.didReset_resetLine (a : ResetAnswer E) (as : List (ResetAnswer E)) :
    (s.didReset a as).resetLine = s.resetLine := rfl
@[simp] theorem State.didReset_transport (a : ResetAnswer E) (as : List (ResetAnswer E)) :
    (s.didReset a as).transport = { s.transport with resets := as } := rfl
@[simp] theorem State.didReset_trace (a : ResetAnswer E) (as : List (ResetAnswer E)) :
    (s.didReset a as).trace = s.trace ++ [.reset a] := rfl
@[simp] theorem State.didReset_bus (a : ResetAnswer E) (as : List (ResetAnswer E)) : (s.didReset a as).bus = s.bus := rfl
@[simp] theorem State.didReset_draws (a : ResetAnswer E) (as : List (ResetAnswer E)) :
    (s.didReset a as).draws = s.draws := rfl

/-! ### `State.didWrite`: R52, R57 -/

@[simp] theorem State.didWrite_phase (l : List Byte) (a : WriteAnswer E) (as : List (WriteAnswer E)) :
    (s.didWrite l a as).phase = s.phase := rfl
@[simp] theorem State.didWrite_req (l : List Byte) (a : WriteAnswer E) (as : List (WriteAnswer E)) :
    (s.didWrite l a as).req = s.req := rfl
@[simp] theorem State.didWrite_frame (l : List Byte) (a : WriteAnswer E) (as : List (WriteAnswer E)) :
    (s.didWrite l a as).frame = s.frame := rfl
@[simp] theorem State.didWrite_frameLen (l : List Byte) (a : WriteAnswer E) (as : List (WriteAnswer E)) :
    (s.didWrite l a as).frameLen = s.frameLen := rfl
@[simp] theorem State.didWrite_payload (l : List Byte) (a : WriteAnswer E) (as : List (WriteAnswer E)) :
    (s.didWrite l a as).payload = s.payload := rfl
@[simp] theorem State.didWrite_sp (l : List Byte) (a : WriteAnswer E) (as : List (WriteAnswer E)) :
    (s.didWrite l a as).sp = s.sp := rfl
@[simp] theorem State.didWrite_status (l : List Byte) (a : WriteAnswer E) (as : List (WriteAnswer E)) :
    (s.didWrite l a as).status = s.status := rfl
@[simp] theorem State.didWrite_xerr (l : List Byte) (a : WriteAnswer E) (as : List (WriteAnswer E)) :
    (s.didWrite l a as).xerr = s.xerr := rfl
@[simp] theorem State.didWrite_tempQ4 (l : List Byte) (a : WriteAnswer E) (as : List (WriteAnswer E)) :
    (s.didWrite l a as).tempQ4 = s.tempQ4 := rfl
@[simp] theorem State.didWrite_requests (l : List Byte) (a : WriteAnswer E) (as : List (WriteAnswer E)) :
    (s.didWrite l a as).requests = s.requests := rfl
@[simp] theorem State.didWrite_resetLine (l : List Byte) (a : WriteAnswer E) (as : List (WriteAnswer E)) :
    (s.didWrite l a as).resetLine = s.resetLine := rfl
@[simp] theorem State.didWrite_transport (l : List Byte) (a : WriteAnswer E) (as : List (WriteAnswer E)) :
    (s.didWrite l a as).transport = { s.transport with writes := as } := rfl
@[simp] theorem State.didWrite_trace (l : List Byte) (a : WriteAnswer E) (as : List (WriteAnswer E)) :
    (s.didWrite l a as).trace = s.trace ++ [.write l a] := rfl
@[simp] theorem State.didWrite_bus (l : List Byte) (a : WriteAnswer E) (as : List (WriteAnswer E)) :
    (s.didWrite l a as).bus = s.bus := rfl
@[simp] theorem State.didWrite_draws (l : List Byte) (a : WriteAnswer E) (as : List (WriteAnswer E)) :
    (s.didWrite l a as).draws = s.draws := rfl

/-! ### `State.didRead`: R53, R57 -/

@[simp] theorem State.didRead_phase (a : ReadAnswer E) (as : List (ReadAnswer E)) : (s.didRead a as).phase = s.phase := rfl
@[simp] theorem State.didRead_req (a : ReadAnswer E) (as : List (ReadAnswer E)) : (s.didRead a as).req = s.req := rfl
@[simp] theorem State.didRead_frame (a : ReadAnswer E) (as : List (ReadAnswer E)) : (s.didRead a as).frame = s.frame := rfl
@[simp] theorem State.didRead_frameLen (a : ReadAnswer E) (as : List (ReadAnswer E)) :
    (s.didRead a as).frameLen = s.frameLen := rfl
@[simp] theorem State.didRead_payload (a : ReadAnswer E) (as : List (ReadAnswer E)) :
    (s.didRead a as).payload = s.payload := rfl
@[simp] theorem State.didRead_sp (a : ReadAnswer E) (as : List (ReadAnswer E)) : (s.didRead a as).sp = s.sp := rfl
@[simp] theorem State.didRead_status (a : ReadAnswer E) (as : List (ReadAnswer E)) :
    (s.didRead a as).status = s.status := rfl
@[simp] theorem State.didRead_xerr (a : ReadAnswer E) (as : List (ReadAnswer E)) : (s.didRead a as).xerr = s.xerr := rfl
@[simp] theorem State.didRead_tempQ4 (a : ReadAnswer E) (as : List (ReadAnswer E)) :
    (s.didRead a as).tempQ4 = s.tempQ4 := rfl
@[simp] theorem State.didRead_requests (a : ReadAnswer E) (as : List (ReadAnswer E)) :
    (s.didRead a as).requests = s.requests := rfl
@[simp] theorem State.didRead_resetLine (a : ReadAnswer E) (as : List (ReadAnswer E)) :
    (s.didRead a as).resetLine = s.resetLine := rfl
@[simp] theorem State.didRead_transport (a : ReadAnswer E) (as : List (ReadAnswer E)) :
    (s.didRead a as).transport = { s.transport with reads := as } := rfl
@[simp] theorem State.didRead_trace (a : ReadAnswer E) (as : List (ReadAnswer E)) :
    (s.didRead a as).trace = s.trace ++ [.read 9 a] := rfl
@[simp] theorem State.didRead_bus (a : ReadAnswer E) (as : List (ReadAnswer E)) : (s.didRead a as).bus = s.bus := rfl
@[simp] theorem State.didRead_draws (a : ReadAnswer E) (as : List (ReadAnswer E)) : (s.didRead a as).draws = s.draws := rfl

/-! ### `State.sendAll`: only the device side -/

@[simp] theorem State.sendAll_phase (l : List Byte) : (s.sendAll l).phase = s.phase := rfl
@[simp] theorem State.sendAll_req (l : List Byte) : (s.sendAll l).req = s.req := rfl
@[simp] theorem State.sendAll_frame (l : List Byte) : (s.sendAll l).frame = s.frame := rfl
@[simp] theorem State.sendAll_frameLen (l : List Byte) : (s.sendAll l).frameLen = s.frameLen := rfl
@[simp] theorem State.sendAll_payload (l : List Byte) : (s.sendAll l).payload = s.payload := rfl
@[simp] theorem State.sendAll_sp (l : List Byte) : (s.sendAll l).sp = s.sp := rfl
@[simp] theorem State.sendAll_status (l : List Byte) : (s.sendAll l).status = s.status := rfl
@[simp] theorem State.sendAll_xerr (l : List Byte) : (s.sendAll l).xerr = s.xerr := rfl
@[simp] theorem State.sendAll_tempQ4 (l : List Byte) : (s.sendAll l).tempQ4 = s.tempQ4 := rfl
@[simp] theorem State.sendAll_requests (l : List Byte) : (s.sendAll l).requests = s.requests := rfl
@[simp] theorem State.sendAll_resetLine (l : List Byte) : (s.sendAll l).resetLine = s.resetLine := rfl
@[simp] theorem State.sendAll_transport (l : List Byte) : (s.sendAll l).transport = s.transport := rfl
@[simp] theorem State.sendAll_trace (l : List Byte) : (s.sendAll l).trace = s.trace := rfl
@[simp] theorem State.sendAll_bus (l : List Byte) : (s.sendAll l).bus = s.bus.takeBytes l := rfl
@[simp] theorem State.sendAll_draws (l : List Byte) : (s.sendAll l).draws = s.draws := rfl

/-! ### `State.sendPart`: only the device side and the draw -/

@[simp] theorem State.sendPart_phase (l : List Byte) : (s.sendPart l).phase = s.phase := rfl
@[simp] theorem State.sendPart_req (l : List Byte) : (s.sendPart l).req = s.req := rfl
@[simp] theorem State.sendPart_frame (l : List Byte) : (s.sendPart l).frame = s.frame := rfl
@[simp] theorem State.sendPart_frameLen (l : List Byte) : (s.sendPart l).frameLen = s.frameLen := rfl
@[simp] theorem State.sendPart_payload (l : List Byte) : (s.sendPart l).payload = s.payload := rfl
@[simp] theorem State.sendPart_sp (l : List Byte) : (s.sendPart l).sp = s.sp := rfl
@[simp] theorem State.sendPart_status (l : List Byte) : (s.sendPart l).status = s.status := rfl
@[simp] theorem State.sendPart_xerr (l : List Byte) : (s.sendPart l).xerr = s.xerr := rfl
@[simp] theorem State.sendPart_tempQ4 (l : List Byte) : (s.sendPart l).tempQ4 = s.tempQ4 := rfl
@[simp] theorem State.sendPart_requests (l : List Byte) : (s.sendPart l).requests = s.requests := rfl
@[simp] theorem State.sendPart_resetLine (l : List Byte) : (s.sendPart l).resetLine = s.resetLine := rfl
@[simp] theorem State.sendPart_transport (l : List Byte) : (s.sendPart l).transport = s.transport := rfl
@[simp] theorem State.sendPart_trace (l : List Byte) : (s.sendPart l).trace = s.trace := rfl
@[simp] theorem State.sendPart_bus (l : List Byte) :
    (s.sendPart l).bus = s.bus.takeBytes (l.take (Config.sentLen s.draws)) := rfl
@[simp] theorem State.sendPart_draws (l : List Byte) : (s.sendPart l).draws = s.draws + 1 := rfl

/-! ### `State.losePayload`: only the device side and the draw -/

@[simp] theorem State.losePayload_phase : (s.losePayload).phase = s.phase := rfl
@[simp] theorem State.losePayload_req : (s.losePayload).req = s.req := rfl
@[simp] theorem State.losePayload_frame : (s.losePayload).frame = s.frame := rfl
@[simp] theorem State.losePayload_frameLen : (s.losePayload).frameLen = s.frameLen := rfl
@[simp] theorem State.losePayload_payload : (s.losePayload).payload = s.payload := rfl
@[simp] theorem State.losePayload_sp : (s.losePayload).sp = s.sp := rfl
@[simp] theorem State.losePayload_status : (s.losePayload).status = s.status := rfl
@[simp] theorem State.losePayload_xerr : (s.losePayload).xerr = s.xerr := rfl
@[simp] theorem State.losePayload_tempQ4 : (s.losePayload).tempQ4 = s.tempQ4 := rfl
@[simp] theorem State.losePayload_requests : (s.losePayload).requests = s.requests := rfl
@[simp] theorem State.losePayload_resetLine : (s.losePayload).resetLine = s.resetLine := rfl
@[simp] theorem State.losePayload_transport : (s.losePayload).transport = s.transport := rfl
@[simp] theorem State.losePayload_trace : (s.losePayload).trace = s.trace := rfl
@[simp] theorem State.losePayload_bus : 
    (s.losePayload).bus =
      (s.bus.takeBytes (s.payload.bytes.take (Config.sentLen s.draws))).losePayload s.draws := rfl
@[simp] theorem State.losePayload_draws : (s.losePayload).draws = s.draws + 1 := rfl

/-! ### `State.loadFrame`: R24, R110 -/

@[simp] theorem State.loadFrame_phase (cmd : Byte) : (s.loadFrame cmd).phase = .sendFrame := rfl
@[simp] theorem State.loadFrame_req (cmd : Byte) : (s.loadFrame cmd).req = s.req := rfl
@[simp] theorem State.loadFrame_frame (cmd : Byte) : (s.loadFrame cmd).frame = s.frameFor cmd := rfl
@[simp] theorem State.loadFrame_frameLen (cmd : Byte) : (s.loadFrame cmd).frameLen = (s.frameFor cmd).length := rfl
@[simp] theorem State.loadFrame_payload (cmd : Byte) : (s.loadFrame cmd).payload = s.payload := rfl
@[simp] theorem State.loadFrame_sp (cmd : Byte) : (s.loadFrame cmd).sp = s.sp := rfl
@[simp] theorem State.loadFrame_status (cmd : Byte) : (s.loadFrame cmd).status = s.status := rfl
@[simp] theorem State.loadFrame_xerr (cmd : Byte) : (s.loadFrame cmd).xerr = s.xerr := rfl
@[simp] theorem State.loadFrame_tempQ4 (cmd : Byte) : (s.loadFrame cmd).tempQ4 = s.tempQ4 := rfl
@[simp] theorem State.loadFrame_requests (cmd : Byte) : (s.loadFrame cmd).requests = s.requests := rfl
@[simp] theorem State.loadFrame_resetLine (cmd : Byte) : (s.loadFrame cmd).resetLine = s.resetLine := rfl
@[simp] theorem State.loadFrame_transport (cmd : Byte) : (s.loadFrame cmd).transport = s.transport := rfl
@[simp] theorem State.loadFrame_trace (cmd : Byte) : (s.loadFrame cmd).trace = s.trace := rfl
@[simp] theorem State.loadFrame_bus (cmd : Byte) : (s.loadFrame cmd).bus = s.bus.openFrame := rfl
@[simp] theorem State.loadFrame_draws (cmd : Byte) : (s.loadFrame cmd).draws = s.draws := rfl

/-! ### `State.loadPayload`: R33 -/

@[simp] theorem State.loadPayload_phase : (s.loadPayload).phase = .sendPayload := rfl
@[simp] theorem State.loadPayload_req : (s.loadPayload).req = s.req := rfl
@[simp] theorem State.loadPayload_frame : (s.loadPayload).frame = s.frame := rfl
@[simp] theorem State.loadPayload_frameLen : (s.loadPayload).frameLen = s.frameLen := rfl
@[simp] theorem State.loadPayload_payload : (s.loadPayload).payload = packPayload (reqArgs s.req).res := rfl
@[simp] theorem State.loadPayload_sp : (s.loadPayload).sp = s.sp := rfl
@[simp] theorem State.loadPayload_status : (s.loadPayload).status = s.status := rfl
@[simp] theorem State.loadPayload_xerr : (s.loadPayload).xerr = s.xerr := rfl
@[simp] theorem State.loadPayload_tempQ4 : (s.loadPayload).tempQ4 = s.tempQ4 := rfl
@[simp] theorem State.loadPayload_requests : (s.loadPayload).requests = s.requests := rfl
@[simp] theorem State.loadPayload_resetLine : (s.loadPayload).resetLine = s.resetLine := rfl
@[simp] theorem State.loadPayload_transport : (s.loadPayload).transport = s.transport := rfl
@[simp] theorem State.loadPayload_trace : (s.loadPayload).trace = s.trace := rfl
@[simp] theorem State.loadPayload_bus : (s.loadPayload).bus = s.bus := rfl
@[simp] theorem State.loadPayload_draws : (s.loadPayload).draws = s.draws := rfl

/-! ### `State.loadRecord`: R25 -/

@[simp] theorem State.loadRecord_phase (r : Scratchpad) : (s.loadRecord r).phase = .decode := rfl
@[simp] theorem State.loadRecord_req (r : Scratchpad) : (s.loadRecord r).req = s.req := rfl
@[simp] theorem State.loadRecord_frame (r : Scratchpad) : (s.loadRecord r).frame = s.frame := rfl
@[simp] theorem State.loadRecord_frameLen (r : Scratchpad) : (s.loadRecord r).frameLen = s.frameLen := rfl
@[simp] theorem State.loadRecord_payload (r : Scratchpad) : (s.loadRecord r).payload = s.payload := rfl
@[simp] theorem State.loadRecord_sp (r : Scratchpad) : (s.loadRecord r).sp = r := rfl
@[simp] theorem State.loadRecord_status (r : Scratchpad) : (s.loadRecord r).status = s.status := rfl
@[simp] theorem State.loadRecord_xerr (r : Scratchpad) : (s.loadRecord r).xerr = s.xerr := rfl
@[simp] theorem State.loadRecord_tempQ4 (r : Scratchpad) : (s.loadRecord r).tempQ4 = s.tempQ4 := rfl
@[simp] theorem State.loadRecord_requests (r : Scratchpad) : (s.loadRecord r).requests = s.requests := rfl
@[simp] theorem State.loadRecord_resetLine (r : Scratchpad) : (s.loadRecord r).resetLine = s.resetLine := rfl
@[simp] theorem State.loadRecord_transport (r : Scratchpad) : (s.loadRecord r).transport = s.transport := rfl
@[simp] theorem State.loadRecord_trace (r : Scratchpad) : (s.loadRecord r).trace = s.trace := rfl
@[simp] theorem State.loadRecord_bus (r : Scratchpad) : (s.loadRecord r).bus = s.bus := rfl
@[simp] theorem State.loadRecord_draws (r : Scratchpad) : (s.loadRecord r).draws = s.draws := rfl

variable (u : BusSide)

/-! ### `BusSide.withLine` -/

@[simp] theorem BusSide.withLine_pos (bs : List Byte) : (u.withLine bs).pos = u.pos := rfl
@[simp] theorem BusSide.withLine_selection (bs : List Byte) : (u.withLine bs).selection = u.selection := rfl
@[simp] theorem BusSide.withLine_devices (bs : List Byte) : (u.withLine bs).devices = u.devices := rfl
@[simp] theorem BusSide.withLine_line (bs : List Byte) : (u.withLine bs).line = bs := rfl

/-! ### `BusSide.openFrame` -/

@[simp] theorem BusSide.openFrame_pos : (u.openFrame).pos = .addressCommand := rfl
@[simp] theorem BusSide.openFrame_selection : (u.openFrame).selection = .nobody := rfl
@[simp] theorem BusSide.openFrame_devices : (u.openFrame).devices = u.devices := rfl
@[simp] theorem BusSide.openFrame_line : (u.openFrame).line = u.line := rfl

/-! ### `BusSide.close` -/

@[simp] theorem BusSide.close_pos : (u.close).pos = .closed := rfl
@[simp] theorem BusSide.close_selection : (u.close).selection = .nobody := rfl
@[simp] theorem BusSide.close_devices : (u.close).devices = u.devices := rfl
@[simp] theorem BusSide.close_line : (u.close).line = u.line := rfl

/-! ### `BusSide.skipRom` -/

@[simp] theorem BusSide.skipRom_pos : (u.skipRom).pos = .functionCommand := rfl
@[simp] theorem BusSide.skipRom_selection : (u.skipRom).selection = .everybody := rfl
@[simp] theorem BusSide.skipRom_devices : (u.skipRom).devices = u.devices := rfl
@[simp] theorem BusSide.skipRom_line : (u.skipRom).line = u.line := rfl

/-! ### `BusSide.matchRom` -/

@[simp] theorem BusSide.matchRom_pos : (u.matchRom).pos = .address [] := rfl
@[simp] theorem BusSide.matchRom_selection : (u.matchRom).selection = .nobody := rfl
@[simp] theorem BusSide.matchRom_devices : (u.matchRom).devices = u.devices := rfl
@[simp] theorem BusSide.matchRom_line : (u.matchRom).line = u.line := rfl

/-! ### `BusSide.convertT` -/

@[simp] theorem BusSide.convertT_pos : (u.convertT).pos = .closed := rfl
@[simp] theorem BusSide.convertT_selection : (u.convertT).selection = u.selection := rfl
@[simp] theorem BusSide.convertT_devices :
    (u.convertT).devices = u.devices.map fun d =>
      if u.selection.covers d then d.convert else d := rfl
@[simp] theorem BusSide.convertT_line : (u.convertT).line = u.line := rfl

/-! ### `BusSide.writeScratchpad` -/

@[simp] theorem BusSide.writeScratchpad_pos : (u.writeScratchpad).pos = .th := rfl
@[simp] theorem BusSide.writeScratchpad_selection : (u.writeScratchpad).selection = u.selection := rfl
@[simp] theorem BusSide.writeScratchpad_devices : (u.writeScratchpad).devices = u.devices := rfl
@[simp] theorem BusSide.writeScratchpad_line : (u.writeScratchpad).line = u.line := rfl

/-! ### `BusSide.readScratchpad` -/

@[simp] theorem BusSide.readScratchpad_pos : (u.readScratchpad).pos = .supplying := rfl
@[simp] theorem BusSide.readScratchpad_selection : (u.readScratchpad).selection = u.selection := rfl
@[simp] theorem BusSide.readScratchpad_devices : (u.readScratchpad).devices = u.devices := rfl
@[simp] theorem BusSide.readScratchpad_line : (u.readScratchpad).line = u.line := rfl

/-! ### `BusSide.configure` -/

@[simp] theorem BusSide.configure_pos (th tl cfg : Byte) : (u.configure th tl cfg).pos = .closed := rfl
@[simp] theorem BusSide.configure_selection (th tl cfg : Byte) : (u.configure th tl cfg).selection = u.selection := rfl
@[simp] theorem BusSide.configure_devices (th tl cfg : Byte) :
    (u.configure th tl cfg).devices = u.devices.map fun d =>
      if u.selection.covers d then d.configure th tl cfg else d := rfl
@[simp] theorem BusSide.configure_line (th tl cfg : Byte) : (u.configure th tl cfg).line = u.line := rfl

/-! ### `BusSide.losePayload` -/

@[simp] theorem BusSide.losePayload_pos (n : Nat) : (u.losePayload n).pos = u.pos := rfl
@[simp] theorem BusSide.losePayload_selection (n : Nat) : (u.losePayload n).selection = u.selection := rfl
@[simp] theorem BusSide.losePayload_devices (n : Nat) : (u.losePayload n).devices = freeRegisters u.selection n 0 u.devices := rfl
@[simp] theorem BusSide.losePayload_line (n : Nat) : (u.losePayload n).line = u.line := rfl

/-! ### One device -/

/-- The two bytes of a count, the high one first, are the count (R59). -/
theorem high_append_low (c : BitVec 16) : c.extractLsb' 8 8 ++ c.extractLsb' 0 8 = c := by
  apply BitVec.eq_of_getLsbD_eq
  intro i hi
  rw [BitVec.getLsbD_append]
  by_cases h : i < 8 <;> simp [h]
  simp [show i - 8 < 8 by omega, show 8 + (i - 8) = i by omega]


section
variable (d : Device) (th tl cfg : Byte)

@[simp] theorem Device.configure_addr : (d.configure th tl cfg).addr = d.addr := rfl
@[simp] theorem Device.configure_conversions : (d.configure th tl cfg).conversions = d.conversions := rfl
@[simp] theorem Device.configure_registers :
    (d.configure th tl cfg).registers =
      { d.registers with th := th, tl := tl, configuration := cfg }.withCrc := rfl
@[simp] theorem Device.convert_addr : d.convert.addr = d.addr := rfl
@[simp] theorem Device.convert_conversions : d.convert.conversions = d.conversions + 1 := rfl
@[simp] theorem Device.convert_th : d.convert.registers.th = d.registers.th := rfl
@[simp] theorem Device.convert_tl : d.convert.registers.tl = d.registers.tl := rfl
@[simp] theorem Device.convert_configuration :
    d.convert.registers.configuration = d.registers.configuration := rfl
@[simp] theorem Device.convert_count :
    d.convert.registers.tempMsb ++ d.convert.registers.tempLsb = Config.conversionResult d.addr d.conversions :=
  high_append_low _
@[simp] theorem Scratchpad.withCrc_firstEight (sp : Scratchpad) : sp.withCrc.firstEight = sp.firstEight := rfl
/-- A record with its own CRC passes the check (R142). -/
@[simp] theorem Scratchpad.withCrc_crcOk (sp : Scratchpad) : crcOk sp.withCrc = true := by
  simp [crcOk, Scratchpad.withCrc, Scratchpad.firstEight]

end

end Sys2Proof.Machine
end

