-- ==== Sys2Proof/Laws/Bus.lean ====
section
/-! SUPPORT. What the operations on the device side keep: the bytes standing on the wire, which devices there are, and the
bound on address bytes; and one lemma per position saying what a byte there does. -/

namespace Sys2Proof.Machine

/-! ## One byte, by its position -/

theorem BusSide.takeByte_closed {u : BusSide} (h : u.pos = .closed) (b : Byte) : u.takeByte b = u := by
  simp [BusSide.takeByte, h]

theorem BusSide.takeByte_supplying {u : BusSide} (h : u.pos = .supplying) (b : Byte) : u.takeByte b = u := by
  simp [BusSide.takeByte, h]

theorem BusSide.takeByte_address {u : BusSide} {got : List Byte} (h : u.pos = .address got) (b : Byte) :
    u.takeByte b = u.takeAddress got b := by simp [BusSide.takeByte, h]

theorem BusSide.takeByte_th {u : BusSide} (h : u.pos = .th) (b : Byte) :
    u.takeByte b = { u with pos := .tl b } := by simp [BusSide.takeByte, h]

theorem BusSide.takeByte_tl {u : BusSide} {th : Byte} (h : u.pos = .tl th) (b : Byte) :
    u.takeByte b = { u with pos := .configuration th b } := by simp [BusSide.takeByte, h]

theorem BusSide.takeByte_configuration {u : BusSide} {th tl : Byte} (h : u.pos = .configuration th tl) (b : Byte) :
    u.takeByte b = u.configure th tl b := by simp [BusSide.takeByte, BusSide.takeConfiguration, h]

theorem BusSide.takeByte_addressCommand {u : BusSide} (h : u.pos = .addressCommand) (b : Byte) :
    u.takeByte b = if b = skipRomByte then u.skipRom else if b = matchRomByte then u.matchRom else u.close := by
  simp [BusSide.takeByte, h]

theorem BusSide.takeByte_functionCommand {u : BusSide} (h : u.pos = .functionCommand) (b : Byte) :
    u.takeByte b = if b = convertTByte then u.convertT
      else if b = writeScratchpadByte then u.writeScratchpad
      else if b = readScratchpadByte then u.readScratchpad else u.close := by
  simp [BusSide.takeByte, h]

@[simp] theorem BusSide.takeBytes_nil (u : BusSide) : u.takeBytes [] = u := rfl

@[simp] theorem BusSide.takeBytes_cons (u : BusSide) (b : Byte) (bs : List Byte) :
    u.takeBytes (b :: bs) = (u.takeByte b).takeBytes bs := rfl

/-! ## What is kept -/

@[simp] theorem BusSide.takeAddress_line (got : List Byte) (b : Byte) (u : BusSide) :
    (u.takeAddress got b).line = u.line := by unfold BusSide.takeAddress; split <;> rfl

@[simp] theorem BusSide.takeAddress_devices (got : List Byte) (b : Byte) (u : BusSide) :
    (u.takeAddress got b).devices = u.devices := by unfold BusSide.takeAddress; split <;> rfl

@[simp] theorem BusSide.takeConfiguration_line (cfg : Byte) (u : BusSide) :
    (u.takeConfiguration cfg).line = u.line := by unfold BusSide.takeConfiguration; split <;> rfl

@[simp] theorem BusSide.takeConfiguration_pos (cfg : Byte) (u : BusSide) :
    (u.takeConfiguration cfg).pos = .closed := by unfold BusSide.takeConfiguration; split <;> rfl

/-- Changing registers of addressed devices keeps which devices there are. -/
theorem map_selected_addr (sel : Selection) (f : Device → Device) (hf : ∀ d, (f d).addr = d.addr) (ds : List Device) :
    (ds.map fun d => if sel.covers d then f d else d).map Device.addr = ds.map Device.addr := by
  simp only [List.map_map]
  apply List.map_congr_left
  intro d _
  simp only [Function.comp]
  split <;> simp [hf]

theorem BusSide.onSelected_addr (f : Device → Device) (u : BusSide) (hf : ∀ d, (f d).addr = d.addr) :
    (u.onSelected f).devices.map Device.addr = u.devices.map Device.addr :=
  map_selected_addr u.selection f hf u.devices

theorem BusSide.configure_addr (th tl cfg : Byte) (u : BusSide) :
    (u.configure th tl cfg).devices.map Device.addr = u.devices.map Device.addr :=
  u.onSelected_addr (Device.configure th tl cfg) fun _ => rfl

theorem BusSide.convertT_addr (u : BusSide) : u.convertT.devices.map Device.addr = u.devices.map Device.addr :=
  u.onSelected_addr Device.convert fun _ => rfl

theorem BusSide.takeConfiguration_addr (cfg : Byte) (u : BusSide) :
    (u.takeConfiguration cfg).devices.map Device.addr = u.devices.map Device.addr := by
  unfold BusSide.takeConfiguration
  split
  · exact u.configure_addr _ _ cfg
  · exact u.onSelected_addr (fun d => d.configure d.registers.th d.registers.tl cfg) fun _ => rfl

@[simp] theorem BusSide.takeByte_line (u : BusSide) (b : Byte) : (u.takeByte b).line = u.line := by
  unfold BusSide.takeByte
  split <;> (try split) <;> (try split) <;> (try split) <;> simp

@[simp] theorem BusSide.takeByte_addr (u : BusSide) (b : Byte) :
    (u.takeByte b).devices.map Device.addr = u.devices.map Device.addr := by
  unfold BusSide.takeByte
  split
  · rfl
  · rfl
  · split <;> (try split) <;> simp
  · simp
  · split
    · exact u.convertT_addr
    · split <;> (try split) <;> simp
  · rfl
  · rfl
  · exact u.takeConfiguration_addr b

@[simp] theorem BusSide.takeBytes_line (l : List Byte) (u : BusSide) : (u.takeBytes l).line = u.line := by
  induction l generalizing u with
  | nil => rfl
  | cons b bs ih => simp [ih]

@[simp] theorem BusSide.takeBytes_addr (l : List Byte) (u : BusSide) :
    (u.takeBytes l).devices.map Device.addr = u.devices.map Device.addr := by
  induction l generalizing u with
  | nil => rfl
  | cons b bs ih => simp [ih]

@[simp] theorem freeRegisters_addr (sel : Selection) (n k : Nat) (ds : List Device) :
    (freeRegisters sel n k ds).map Device.addr = ds.map Device.addr := by
  induction ds generalizing k with
  | nil => rfl
  | cons d ds ih => simp only [freeRegisters, List.map_cons, ih]; split <;> rfl

/-! ## A payload that was not delivered -/

/-- Everything a prefix of a payload can do where a payload is taken (R88, R184). -/
theorem BusSide.takePayload_cases {u : BusSide} (h : u.pos = .th) (p : Payload) (k : Nat) :
    u.takeBytes (p.bytes.take k) = u ∨
    u.takeBytes (p.bytes.take k) = { u with pos := .tl p.th } ∨
    u.takeBytes (p.bytes.take k) = { u with pos := .configuration p.th p.tl } ∨
    u.takeBytes (p.bytes.take k) = u.configure p.th p.tl p.configuration := by
  rcases k with _ | _ | _ | k <;>
    simp [Payload.bytes, BusSide.takeByte, BusSide.takeConfiguration, BusSide.configure, BusSide.onSelected, h]

theorem Selection.covers_congr (sel : Selection) {d d' : Device} (h : d'.addr = d.addr) :
    sel.covers d' = sel.covers d := by unfold Selection.covers; rw [h]

theorem PayloadLost.refl (sel : Selection) (ds : List Device) : PayloadLost sel ds ds := by
  refine ⟨rfl, fun k d d' h h' => ?_⟩
  rw [h, Option.some.injEq] at h'
  subst h'
  exact ⟨rfl, rfl, fun _ => rfl, _, _, _, _, rfl⟩

theorem PayloadLost.trans {sel : Selection} {ds es fs : List Device} (h : PayloadLost sel ds es)
    (h' : PayloadLost sel es fs) : PayloadLost sel ds fs := by
  refine ⟨h'.1.trans h.1, fun k d f hd hf => ?_⟩
  obtain ⟨e, he⟩ : ∃ e, es[k]? = some e := by
    have := List.getElem?_eq_some_iff.1 hf
    exact ⟨_, List.getElem?_eq_getElem (h'.1 ▸ this.1)⟩
  obtain ⟨a, c, n, _, _, _, _, r⟩ := h.2 k d e hd he
  obtain ⟨a', c', n', _, _, _, _, r'⟩ := h'.2 k e f he hf
  exact ⟨a'.trans a, c'.trans c, fun hc => (n' ((sel.covers_congr a).trans hc)).trans (n hc), _, _, _, _, by rw [r', r]⟩

/-- Addressed devices that take some payload, whichever each takes, lose no more than that. -/
theorem payloadLost_configure (sel : Selection) (d : Device) (th tl cfg : Byte) :
    let d' := if sel.covers d then d.configure th tl cfg else d
    d'.addr = d.addr ∧ d'.conversions = d.conversions ∧ (sel.covers d = false → d' = d) ∧
      ∃ th tl cfg crc, d'.registers = { d.registers with th := th, tl := tl, configuration := cfg, crc := crc } := by
  cases h : sel.covers d
  · exact ⟨rfl, rfl, fun _ => rfl, _, _, _, _, rfl⟩
  · exact ⟨rfl, rfl, fun h => (Bool.noConfusion h), _, _, _, _, rfl⟩

theorem BusSide.configure_payloadLost (th tl cfg : Byte) (u : BusSide) :
    PayloadLost u.selection u.devices (u.configure th tl cfg).devices := by
  refine ⟨by simp, fun k d d' hd hd' => ?_⟩
  rw [BusSide.configure_devices, List.getElem?_map, hd, Option.map_some, Option.some.injEq] at hd'
  exact hd' ▸ payloadLost_configure u.selection d th tl cfg

/-- What the free values of R249 leave as it was. -/
theorem freeRegisters_payloadLost (sel : Selection) (n k : Nat) (ds : List Device) :
    PayloadLost sel ds (freeRegisters sel n k ds) := by
  induction ds generalizing k with
  | nil => exact PayloadLost.refl sel []
  | cons e es ih =>
    refine ⟨by simp [freeRegisters, (ih (k + 1)).1], fun i d d' hd hd' => ?_⟩
    cases i with
    | zero =>
      simp only [freeRegisters, List.getElem?_cons_zero, Option.some.injEq] at hd hd'
      subst hd
      exact hd' ▸ payloadLost_configure sel e _ _ _
    | succ i => exact (ih (k + 1)).2 i d d' hd hd'

/-- The positions that keep the bound of R86: fewer than 8 address bytes have been received while one is still to come. -/
abbrev BusSide.AddressBound (u : BusSide) : Prop := ∀ got, u.pos = .address got → got.length < 8

theorem BusSide.takeByte_addressBound (u : BusSide) (b : Byte) (_h : u.AddressBound) :
    (u.takeByte b).AddressBound := by
  intro got
  unfold BusSide.takeByte BusSide.takeAddress
  split <;> (try split) <;> (try split) <;> (try split) <;> intro hp <;> simp_all
  subst hp; simp; omega

theorem BusSide.takeBytes_addressBound (l : List Byte) (u : BusSide) (h : u.AddressBound) :
    (u.takeBytes l).AddressBound := by
  induction l generalizing u with
  | nil => exact h
  | cons b bs ih => exact ih _ (u.takeByte_addressBound b h)

end Sys2Proof.Machine
end

