-- ==== Sys2Proof/Laws/Encoding.lean ====
section
/-! SUPPORT. The fields of an assembled request word (R80), and where each constructor's bits stand. -/

namespace Sys2Proof

@[simp] theorem reqOp_reqWord (op : BitVec 3) (a : ReqArgs) : reqOp (reqWord op a) = op := by
  apply BitVec.eq_of_getLsbD_eq
  intro i hi
  simp only [reqOp, reqWord]
  have : i = 0 ∨ i = 1 ∨ i = 2 := by omega
  rcases this with rfl | rfl | rfl <;> simp

theorem reqArgs_addrValid (op : BitVec 3) (a : ReqArgs) : (reqArgs (reqWord op a)).addrValid = a.addrValid := by
  simp [reqArgs, reqWord]

theorem reqArgs_busValid (op : BitVec 3) (a : ReqArgs) : (reqArgs (reqWord op a)).busValid = a.busValid := by
  simp [reqArgs, reqWord]

theorem reqArgs_outValid (op : BitVec 3) (a : ReqArgs) : (reqArgs (reqWord op a)).outValid = a.outValid := by
  simp [reqArgs, reqWord]

theorem reqArgs_res (op : BitVec 3) (a : ReqArgs) : (reqArgs (reqWord op a)).res = a.res := by
  apply BitVec.eq_of_getLsbD_eq
  intro i hi
  have : i = 0 ∨ i = 1 := by omega
  rcases this with rfl | rfl <;> simp [reqArgs, reqWord]

theorem reqArgs_addr (op : BitVec 3) (a : ReqArgs) : (reqArgs (reqWord op a)).addr = a.addr := by
  apply BitVec.eq_of_getLsbD_eq
  intro i hi
  have h0 : 8 + i < 72 := by omega
  have h2 : op.getLsbD (8 + i) = false := BitVec.getLsbD_of_ge _ _ (by omega)
  have h3 : a.res.getLsbD (8 + i - 4) = false := BitVec.getLsbD_of_ge _ _ (by omega)
  have h4 : 8 + i - 3 ≠ 0 ∧ 8 + i - 6 ≠ 0 ∧ 8 + i - 7 ≠ 0 := by omega
  simp [reqArgs, reqWord, hi, h0, h2, h3, h4, BitVec.getLsbD_ofBool]

@[simp] theorem reqArgs_reqWord (op : BitVec 3) (a : ReqArgs) : reqArgs (reqWord op a) = a := by
  have h1 := reqArgs_addrValid op a
  have h2 := reqArgs_busValid op a
  have h3 := reqArgs_outValid op a
  have h4 := reqArgs_res op a
  have h5 := reqArgs_addr op a
  cases a; cases h : reqArgs (reqWord op _)
  simp_all

/-- A word is assembled from its own fields: no bit of it lies outside them (R80, "the word has no reserved bits"). -/
@[simp] theorem reqWord_fields (w : ReqWord) : reqWord (reqOp w) (reqArgs w) = w := by
  apply BitVec.eq_of_getLsbD_eq
  intro i hi
  rcases Nat.lt_or_ge i 8 with h | h
  · have : i = 0 ∨ i = 1 ∨ i = 2 ∨ i = 3 ∨ i = 4 ∨ i = 5 ∨ i = 6 ∨ i = 7 := by omega
    rcases this with rfl | rfl | rfl | rfl | rfl | rfl | rfl | rfl <;>
      simp [reqOp, reqArgs, reqWord]
  · have h1 : ¬ i < 3 ∧ ¬ i < 4 ∧ ¬ i < 6 ∧ ¬ i < 7 ∧ ¬ i < 8 := by omega
    have h2 : ¬ i - 4 < 2 ∧ i - 3 ≠ 0 ∧ i - 6 ≠ 0 ∧ i - 7 ≠ 0 ∧ 8 + (i - 8) = i ∧ i - 8 < 64 := by omega
    simp [reqOp, reqArgs, reqWord, BitVec.getLsbD_ofBool, h1, h2, hi]

end Sys2Proof
end

