-- ==== Sys2Proof/Laws/Ops.lean ====
section
/-! SUPPORT. For each shared operation of the sequencer one lemma that says everything it can do; proofs about steps cite
these and do not unfold the operations. -/

namespace Sys2Proof.Machine

variable {E : Type}

/-! ## One lemma per phase -/

/-- Everything a step out of RESET can do. -/
theorem stepReset_cases (s : State E) :
    (s.transport.resets = [] ∧ s.stepReset = s) ∨
    (∃ as, s.transport.resets = .absent :: as ∧ s.stepReset = (s.didReset .absent as).endWith .notFound) ∨
    (∃ e as, s.transport.resets = .err e :: as ∧ s.stepReset = (s.didReset (.err e) as).endTransport e) ∨
    (∃ as, s.transport.resets = .present :: as ∧ s.command = none ∧
      s.stepReset = (s.didReset .present as).endWith .illegalOp) ∨
    (∃ as cmd, s.transport.resets = .present :: as ∧ s.command = some cmd ∧
      s.stepReset = (s.didReset .present as).loadFrame cmd) := by
  unfold State.stepReset
  split <;> simp_all
  split <;> simp_all

/-- Everything that follows a frame that was written. -/
theorem afterFrame_cases (s : State E) :
    (reqOp s.req = 1 ∧ s.afterFrame = s.endWith .ok) ∨
    (reqOp s.req = 2 ∧ s.afterFrame = s.enter .readSp) ∨
    (reqOp s.req = 3 ∧ s.afterFrame = s.loadPayload) ∨
    ((reqOp s.req ≠ 1 ∧ reqOp s.req ≠ 2 ∧ reqOp s.req ≠ 3) ∧ s.afterFrame = s.endWith .illegalOp) := by
  unfold State.afterFrame
  by_cases h1 : reqOp s.req = 1
  · exact .inl ⟨h1, if_pos h1⟩
  · by_cases h2 : reqOp s.req = 2
    · exact .inr (.inl ⟨h2, by rw [if_neg h1, if_pos h2]⟩)
    · by_cases h3 : reqOp s.req = 3
      · exact .inr (.inr (.inl ⟨h3, by rw [if_neg h1, if_neg h2, if_pos h3]⟩))
      · exact .inr (.inr (.inr ⟨⟨h1, h2, h3⟩, by rw [if_neg h1, if_neg h2, if_neg h3]⟩))

/-- Everything a step out of SEND_FRAME can do. -/
theorem stepSendFrame_cases (s : State E) :
    (s.transport.writes = [] ∧ s.stepSendFrame = s) ∨
    (∃ as, s.transport.writes = .ok :: as ∧
      s.stepSendFrame = ((s.didWrite s.frameBytes .ok as).sendAll s.frameBytes).afterFrame) ∨
    (∃ e as, s.transport.writes = .err e :: as ∧
      s.stepSendFrame = ((s.didWrite s.frameBytes (.err e) as).sendPart s.frameBytes).endTransport e) := by
  unfold State.stepSendFrame
  split <;> simp_all

/-- Everything a step out of SEND_PAYLOAD can do. -/
theorem stepSendPayload_cases (s : State E) :
    (s.transport.writes = [] ∧ s.stepSendPayload = s) ∨
    (∃ as, s.transport.writes = .ok :: as ∧
      s.stepSendPayload = ((s.didWrite s.payload.bytes .ok as).sendAll s.payload.bytes).endWith .ok) ∨
    (∃ e as, s.transport.writes = .err e :: as ∧
      s.stepSendPayload = ((s.didWrite s.payload.bytes (.err e) as).losePayload).endTransport e) := by
  unfold State.stepSendPayload
  split <;> simp_all

/-- Everything a step out of READ_SP can do. -/
theorem stepReadSp_cases (s : State E) :
    (s.transport.reads = [] ∧ s.stepReadSp = s) ∨
    (∃ sp as, s.transport.reads = .bytes sp :: as ∧
      s.stepReadSp = (s.didRead (.bytes sp) as).loadRecord sp) ∨
    (∃ e as, s.transport.reads = .err e :: as ∧ s.stepReadSp = (s.didRead (.err e) as).endTransport e) := by
  unfold State.stepReadSp
  split <;> simp_all

/-- Everything the answer of DECODE can lead to. -/
theorem endDecode_cases (d : Decoded) (s : State E) :
    (∃ q, d = .temp q ∧ s.endDecode d = s.finishRead q) ∨
    (d = .badCrc ∧ s.endDecode d = s.endWith .invalidCrc) ∨
    (d = .badCfg ∧ s.endDecode d = s.endWith .configRange) := by
  rcases d with q | _ | _
  · exact .inl ⟨q, rfl, rfl⟩
  · exact .inr (.inl ⟨rfl, rfl⟩)
  · exact .inr (.inr ⟨rfl, rfl⟩)

/-! ## Going on through phases -/

theorem advance_idle {s : State E} (h : s.phase = .idle) : s.advance = s := by simp [State.advance, h]
theorem advance_reset {s : State E} (h : s.phase = .reset) : s.advance = s.stepReset := by simp [State.advance, h]
theorem advance_sendFrame {s : State E} (h : s.phase = .sendFrame) : s.advance = s.stepSendFrame := by
  simp [State.advance, h]
theorem advance_sendPayload {s : State E} (h : s.phase = .sendPayload) : s.advance = s.stepSendPayload := by
  simp [State.advance, h]
theorem advance_readSp {s : State E} (h : s.phase = .readSp) : s.advance = s.stepReadSp := by simp [State.advance, h]
theorem advance_decode {s : State E} (h : s.phase = .decode) : s.advance = s.stepDecode := by simp [State.advance, h]

/-- Whatever one step out of a phase keeps, going on keeps. -/
theorem advances_induction {P : State E → Prop} (hstep : ∀ s, P s → P s.advance) :
    ∀ (n : Nat) (s : State E), P s → P (s.advances n)
  | 0, _, h     => h
  | n + 1, s, h => advances_induction hstep n s.advance (hstep s h)

theorem proceed_induction {P : State E → Prop} (hstep : ∀ s, P s → P s.advance) {s : State E} (h : P s) : P s.proceed :=
  advances_induction hstep 4 s h

/-- Where one step out of a phase changes nothing, going on changes nothing: in IDLE, and while the transport has not
answered. -/
theorem proceed_of_advance_eq {s : State E} (h : s.advance = s) : s.proceed = s := by
  simp [State.proceed, State.advances, h]

/-! ## Taking a request -/

/-- Everything presenting a request can do. -/
theorem take_cases (w : ReqWord) (body : State E → State E) (s : State E) :
    (s.phase = .idle ∧ s.take w body = body (s.latch w)) ∨
    (s.phase ≠ .idle ∧ s.take w body = s.withRequests (s.requests ++ [w])) := by
  unfold State.take State.busy
  by_cases h : s.phase = .idle <;> simp [h]

/-- Everything the body of an operation can do. -/
theorem start_cases (valid : Bool) (s : State E) :
    (valid = true ∧ s.start valid = (s.enter .reset).proceed) ∨
    (valid = false ∧ s.start valid = s.endWith .invalidArgument) := by
  cases valid
  · exact .inr ⟨rfl, rfl⟩
  · exact .inl ⟨rfl, rfl⟩

end Sys2Proof.Machine
end

