-- ==== Sys2Proof/Laws/PerInstr.lean ====
section
/-! SUPPORT. A fact about every instruction, made per constructor: the decoder only yields well-formed terms. -/

namespace Sys2Proof.Laws.DecodedIsWellFormed

/-- Whatever decodes to the instruction, the instruction is well formed. -/
def Statement (i : Instr) : Prop := ∀ f, decode f = .ok i → i.wf = true

theorem trigger (a : ReqArgs) : Statement (.trigger a) := fun _ _ => rfl
theorem readTemp (a : ReqArgs) : Statement (.readTemp a) := fun _ _ => rfl
theorem setRes (a : ReqArgs) : Statement (.setRes a) := fun _ _ => rfl
theorem reservedOp0 (a : ReqArgs) : Statement (.reservedOp0 a) := fun _ _ => rfl
theorem reservedOp4 (a : ReqArgs) : Statement (.reservedOp4 a) := fun _ _ => rfl
theorem reservedOp5 (a : ReqArgs) : Statement (.reservedOp5 a) := fun _ _ => rfl
theorem reservedOp6 (a : ReqArgs) : Statement (.reservedOp6 a) := fun _ _ => rfl
theorem reservedOp7 (a : ReqArgs) : Statement (.reservedOp7 a) := fun _ _ => rfl
theorem skipRom : Statement .skipRom := fun _ _ => rfl
theorem matchRom : Statement .matchRom := fun _ _ => rfl
theorem convertT : Statement .convertT := fun _ _ => rfl
theorem writeScratchpad : Statement .writeScratchpad := fun _ _ => rfl
theorem readScratchpad : Statement .readScratchpad := fun _ _ => rfl
theorem cfg9Bit : Statement .cfg9Bit := fun _ _ => rfl
theorem cfg10Bit : Statement .cfg10Bit := fun _ _ => rfl
theorem cfg11Bit : Statement .cfg11Bit := fun _ _ => rfl
theorem cfg12Bit : Statement .cfg12Bit := fun _ _ => rfl

/-- Only the place of a read configuration byte decodes to a constructor that carries one, and by its index. -/
theorem wf_of_configRead (b : Byte) : (decodeConfigRead b).wf = true := by
  unfold decodeConfigRead cfgIndex
  split <;> (try split) <;> (try split) <;> (try split) <;> simp_all [Instr.wf]
  revert b; decide

/-- A request decodes to a request. -/
theorem wf_of_request (w : ReqWord) : (decodeRequest w).wf = true := by
  unfold decodeRequest; (repeat' split) <;> rfl

/-- What every place yields is well formed. -/
theorem wf_of_decode (f : Fetched) (i : Instr) (h : decode f = .ok i) : i.wf = true := by
  cases f with
  | request w => cases h; exact wf_of_request w
  | configRead b => cases h; exact wf_of_configRead b
  | addressCommand b =>
    simp only [decode, decodeAddressCommand] at h
    (repeat' split at h) <;> cases h <;> rfl
  | functionCommand b =>
    simp only [decode, decodeFunctionCommand] at h
    (repeat' split at h) <;> cases h <;> rfl
  | configWritten b =>
    simp only [decode, decodeConfigWritten] at h
    (repeat' split at h) <;> cases h <;> rfl

theorem cfgReadIdx0 (cfg : Byte) : Statement (.cfgReadIdx0 cfg) := fun f h => wf_of_decode f _ h
theorem cfgReadIdx1 (cfg : Byte) : Statement (.cfgReadIdx1 cfg) := fun f h => wf_of_decode f _ h
theorem cfgReadIdx2 (cfg : Byte) : Statement (.cfgReadIdx2 cfg) := fun f h => wf_of_decode f _ h
theorem cfgReadIdx3 (cfg : Byte) : Statement (.cfgReadIdx3 cfg) := fun f h => wf_of_decode f _ h
theorem cfgReadOutOfContract (cfg : Byte) : Statement (.cfgReadOutOfContract cfg) := fun f h => wf_of_decode f _ h

end Sys2Proof.Laws.DecodedIsWellFormed
end

