-- ==== Sys2Proof/Laws/Step.lean ====
section
/-! SUPPORT. What a request does in one form for all eight rows, and the inversion of a step: everything one step of the
machine can do, for any type of error values, and the same of `exec` and `step`. Proofs about all steps cite
`step_cases` or `stepOf_cases` and do not unfold the step. -/

namespace Sys2Proof.Machine

variable {E : Type}

/-- What follows the latching of a request word in IDLE (R98): one of the three operations, or the end of R83. -/
def requestBody (w : ReqWord) : State E → State E :=
  if reqOp w = 1 ∨ reqOp w = 3 then State.start (reqArgs w).busValid
  else if reqOp w = 2 then State.start ((reqArgs w).busValid && (reqArgs w).outValid)
  else State.endWith .illegalOp

/-- A list is empty or has a first entry. -/
theorem list_cases {α : Type} (l : List α) : l = [] ∨ ∃ a as, l = a :: as := by cases l <;> simp

/-- The six phases. -/
theorem phase_cases (p : Phase) :
    p = .idle ∨ p = .decode ∨ p = .reset ∨ p = .sendFrame ∨ p = .sendPayload ∨ p = .readSp := by cases p <;> simp

/-- The eight codes. -/
theorem op_cases (op : BitVec 3) :
    op = 0 ∨ op = 1 ∨ op = 2 ∨ op = 3 ∨ op = 4 ∨ op = 5 ∨ op = 6 ∨ op = 7 := by revert op; decide

/-- Executing the request of any word is taking that word. -/
theorem execOf_decodeRequest (w : ReqWord) (s : State E) :
    execOf (decodeRequest w) s = .next (s.take w (requestBody w)) := by
  have hw := reqWord_fields w
  rcases op_cases (reqOp w) with h | h | h | h | h | h | h | h <;> rw [h] at hw <;>
    simp only [decodeRequest, requestBody, h] <;> rw [← hw] <;> simp <;> rfl

/-- Everything the body of a request can do. -/
theorem requestBody_cases (w : ReqWord) (s : State E) :
    (Startable w ∧ requestBody w s = (s.enter .reset).proceed) ∨
    ((reqOp w = 1 ∨ reqOp w = 2 ∨ reqOp w = 3) ∧
      ((reqArgs w).busValid = false ∨ (reqOp w = 2 ∧ (reqArgs w).outValid = false)) ∧
      requestBody w s = s.endWith .invalidArgument) ∨
    ((reqOp w ≠ 1 ∧ reqOp w ≠ 2 ∧ reqOp w ≠ 3) ∧ requestBody w s = s.endWith .illegalOp) := by
  unfold requestBody Startable
  rcases op_cases (reqOp w) with h | h | h | h | h | h | h | h <;> rw [h] <;>
    cases (reqArgs w).busValid <;> cases (reqArgs w).outValid <;> simp [State.start]

/-- Executing the row of the configuration byte in SP is a step out of DECODE (R144, R151). -/
theorem execOf_decodeConfigRead (s : State E) :
    execOf (decodeConfigRead s.sp.configuration) s = .next s.stepDecode := by
  unfold decodeConfigRead
  (repeat' split) <;>
    simp_all [execOf, execCfgReadIdx0, execCfgReadIdx1, execCfgReadIdx2, execCfgReadIdx3, execCfgReadOutOfContract,
      State.stepDecode, decodeRecord, decodeWithIndex, lsbMask]

/-- A byte that is an instruction at its place does, executed, what the devices do taking it. -/
theorem execOf_wire {s : State E} {b : Byte} {f : Fetched} {i : Instr} (hf : s.bus.pos.placeOf b = some f)
    (hd : decode f = .ok i) : execOf i s = .next (s.withBus (s.bus.takeByte b)) := by
  cases hp : s.bus.pos with
  | addressCommand =>
    rw [BusSide.takeByte_addressCommand hp]
    simp only [hp, BusPos.placeOf, Option.some.injEq] at hf
    subst hf
    simp only [decode, decodeAddressCommand] at hd
    (repeat' split at hd) <;> cases hd <;> simp only [*, if_true] <;> rfl
  | functionCommand =>
    rw [BusSide.takeByte_functionCommand hp]
    simp only [hp, BusPos.placeOf, Option.some.injEq] at hf
    subst hf
    simp only [decode, decodeFunctionCommand] at hd
    (repeat' split at hd) <;> cases hd <;> simp only [*, if_true] <;> rfl
  | configuration th tl =>
    have ht : s.bus.takeByte b = s.bus.takeConfiguration b := by simp [BusSide.takeByte, hp]
    rw [ht]
    simp only [hp, BusPos.placeOf] at hf
    split at hf <;> cases hf
    simp only [decode, decodeConfigWritten] at hd
    (repeat' split at hd) <;> cases hd <;> subst b <;> rfl
  | closed | address _ | th | tl _ | supplying => simp [hp, BusPos.placeOf] at hf

/-- What is fetched from the wire. -/
theorem fetch_line {s : State E} {b : Byte} {bs : List Byte} (hr : s.resetLine = false) (hl : s.bus.line = b :: bs) :
    s.fetch = (s.bus.pos.placeOf b).map fun f => (f, s.withBus (s.bus.withLine bs)) := by
  have hn : ¬ s.resetLine = true := by simp [hr]
  simp only [State.fetch, if_neg hn, hl]

/-- What happens with a byte on the wire that is no instruction. -/
theorem unfetched_line {s : State E} {b : Byte} {bs : List Byte} (hr : s.resetLine = false) (hl : s.bus.line = b :: bs) :
    ((s.bus.pos = .closed ∨ s.bus.pos = .supplying) ∧ s.unfetched = .fault .byteOutOfPlace) ∨
    ((s.bus.pos ≠ .closed ∧ s.bus.pos ≠ .supplying) ∧
      s.unfetched = .next (s.withBus ((s.bus.withLine bs).takeByte b))) := by
  have hn : ¬ s.resetLine = true := by simp [hr]
  simp only [State.unfetched, if_neg hn, hl]
  split <;> simp_all

/-- A step with a byte on the wire, if it goes on, has the devices take that byte, whether it is an instruction or data. -/
theorem stepOf_wire {s t : State E} {b : Byte} {bs : List Byte} (hr : s.resetLine = false) (hl : s.bus.line = b :: bs)
    (h : stepOf s = .next t) : t = s.withBus ((s.bus.withLine bs).takeByte b) := by
  unfold stepOf State.stepWith at h
  rw [fetch_line hr hl] at h
  cases hp : s.bus.pos.placeOf b with
  | none =>
    rw [hp] at h
    simp only [Option.map_none] at h
    rcases unfetched_line hr hl with ⟨_, hu⟩ | ⟨_, hu⟩ <;> rw [hu] at h
    · cases h
    · exact (Host.Outcome.next.inj h).symm
  | some f =>
    rw [hp] at h
    simp only [Option.map_some] at h
    cases hd : decode f with
    | error e => simp [hd] at h
    | ok i =>
      simp only [hd] at h
      exact (Host.Outcome.next.inj ((execOf_wire (s := s.withBus (s.bus.withLine bs)) hp hd).symm.trans h)).symm

/-- With nothing on the wire and no block reset, a step is decided by the phase. -/
theorem stepOf_quiet {s : State E} (hr : s.resetLine = false) (hl : s.bus.line = []) :
    stepOf s =
      match s.phase with
      | .idle =>
        match s.requests with
        | []      => .next s.proceed
        | w :: ws => execOf (decodeRequest w) (s.withRequests ws)
      | .decode => execOf (decodeConfigRead s.sp.configuration) s
      | .reset | .sendFrame | .sendPayload | .readSp => .next s.proceed := by
  have hn : ¬ s.resetLine = true := by simp [hr]
  unfold stepOf State.stepWith
  simp only [State.fetch, State.unfetched, if_neg hn, hl]
  cases s.phase <;> try rfl
  cases s.requests <;> rfl

/-- Everything a step that goes on can do. -/
theorem stepOf_cases {s t : State E} (h : stepOf s = .next t) :
    (s.resetLine = true ∧ t = s.blockReset) ∨
    (s.resetLine = false ∧ ∃ b bs, s.bus.line = b :: bs ∧
      t = s.withBus ((s.bus.withLine bs).takeByte b)) ∨
    (s.resetLine = false ∧ s.bus.line = [] ∧ s.phase = .idle ∧ s.requests = [] ∧ t = s) ∨
    (s.resetLine = false ∧ s.bus.line = [] ∧ s.phase = .idle ∧ ∃ w ws, s.requests = w :: ws ∧
      t = requestBody w ((s.withRequests ws).latch w)) ∨
    (s.resetLine = false ∧ s.bus.line = [] ∧ s.phase = .decode ∧ t = s.stepDecode) ∨
    (s.resetLine = false ∧ s.bus.line = [] ∧ s.phase ≠ .idle ∧ s.phase ≠ .decode ∧ t = s.proceed) := by
  rcases Bool.eq_false_or_eq_true s.resetLine with hr | hr
  · simp only [stepOf, State.stepWith, State.fetch, State.unfetched, hr, if_true] at h
    exact .inl ⟨hr, (Host.Outcome.next.inj h).symm⟩
  refine .inr ?_
  rcases list_cases s.bus.line with hl | ⟨b, bs, hl⟩
  · refine .inr ?_
    rw [stepOf_quiet hr hl] at h
    rcases phase_cases s.phase with hp | hp | hp | hp | hp | hp <;> simp only [hp] at h
    · rcases list_cases s.requests with hq | ⟨w, ws, hq⟩ <;> simp only [hq] at h
      · rw [proceed_of_advance_eq (advance_idle hp)] at h
        exact .inl ⟨hr, hl, hp, hq, (Host.Outcome.next.inj h).symm⟩
      · rw [execOf_decodeRequest] at h
        rcases take_cases w (requestBody w) (s.withRequests ws) with ⟨_, ht⟩ | ⟨hne, _⟩
        · rw [ht] at h
          exact .inr (.inl ⟨hr, hl, hp, w, ws, hq, (Host.Outcome.next.inj h).symm⟩)
        · exact absurd hp hne
    · rw [execOf_decodeConfigRead] at h
      exact .inr (.inr (.inl ⟨hr, hl, hp, (Host.Outcome.next.inj h).symm⟩))
    all_goals
      exact .inr (.inr (.inr ⟨hr, hl, by simp [hp], by simp [hp], (Host.Outcome.next.inj h).symm⟩))
  · exact .inl ⟨hr, b, bs, hl, stepOf_wire hr hl h⟩

/-! ## The machine that `core` runs -/

/-- `exec` gives every instruction the meaning that `execOf` gives it. -/
theorem exec_eq_execOf (i : Instr) (s : State) : exec i s = execOf i s := by cases i <;> rfl

/-- `step` is the step of the machine at `XportErr`. -/
theorem step_eq_stepOf (s : State) : step s = stepOf s := by
  simp only [step, stepOf, State.stepWith, exec_eq_execOf]

theorem exec_decodeRequest (w : ReqWord) (s : State) :
    exec (decodeRequest w) s = .next (s.take w (requestBody w)) := by
  rw [exec_eq_execOf, execOf_decodeRequest]

theorem exec_decodeConfigRead (s : State) :
    exec (decodeConfigRead s.sp.configuration) s = .next s.stepDecode := by
  rw [exec_eq_execOf, execOf_decodeConfigRead]

theorem exec_wire {s : State} {b : Byte} {f : Fetched} {i : Instr} (hf : s.bus.pos.placeOf b = some f)
    (hd : decode f = .ok i) : exec i s = .next (s.withBus (s.bus.takeByte b)) := by
  rw [exec_eq_execOf, execOf_wire hf hd]

theorem step_wire {s t : State} {b : Byte} {bs : List Byte} (hr : s.resetLine = false) (hl : s.bus.line = b :: bs)
    (h : step s = .next t) : t = s.withBus ((s.bus.withLine bs).takeByte b) :=
  stepOf_wire hr hl (step_eq_stepOf s ▸ h)

theorem step_quiet {s : State} (hr : s.resetLine = false) (hl : s.bus.line = []) :
    step s =
      match s.phase with
      | .idle =>
        match s.requests with
        | []      => .next s.proceed
        | w :: ws => exec (decodeRequest w) (s.withRequests ws)
      | .decode => exec (decodeConfigRead s.sp.configuration) s
      | .reset | .sendFrame | .sendPayload | .readSp => .next s.proceed := by
  simp only [step_eq_stepOf, exec_eq_execOf]
  exact stepOf_quiet hr hl

/-- Everything a step of the machine that `core` runs can do. -/
theorem step_cases {s t : State} (h : step s = .next t) :
    (s.resetLine = true ∧ t = s.blockReset) ∨
    (s.resetLine = false ∧ ∃ b bs, s.bus.line = b :: bs ∧
      t = s.withBus ((s.bus.withLine bs).takeByte b)) ∨
    (s.resetLine = false ∧ s.bus.line = [] ∧ s.phase = .idle ∧ s.requests = [] ∧ t = s) ∨
    (s.resetLine = false ∧ s.bus.line = [] ∧ s.phase = .idle ∧ ∃ w ws, s.requests = w :: ws ∧
      t = requestBody w ((s.withRequests ws).latch w)) ∨
    (s.resetLine = false ∧ s.bus.line = [] ∧ s.phase = .decode ∧ t = s.stepDecode) ∨
    (s.resetLine = false ∧ s.bus.line = [] ∧ s.phase ≠ .idle ∧ s.phase ≠ .decode ∧ t = s.proceed) :=
  stepOf_cases (step_eq_stepOf s ▸ h)

end Sys2Proof.Machine
end

