-- ==== Sys2Proof/Tests/Slice0.lean ====
section
/-! SUPPORT. The model's own tests: the decoder on words written out from 30_encoding.md, single steps against the vectors of
95_test_vectors.md, and for every statement with hypotheses concrete values that meet them. -/

namespace Sys2Proof.Tests

-- one theorem at a time: these many small ones in parallel take memory for nothing
set_option Elab.async false

open Sys2Proof.Machine

/-! ## Helpers -/

/-- The state of a next outcome. -/
def nextOf : Host.Outcome State Fault Refusal → Option State
  | .next s => some s
  | _       => none

/-- A view of the state of a next outcome. -/
def see {α : Type} (f : State → α) (o : Host.Outcome State Fault Refusal) : Option α := (nextOf o).map f

/-- STATUS, PHASE and the trace. -/
def outs (s : State) : Status × Phase × List Event := (s.status, s.phase, s.trace)

/-- The example address of 95_test_vectors.md. -/
def exampleAddr : Addr := 0xEA051691604CFF28

/-- The machine after reset with these answers to come. -/
def answered (rs : List ResetAnswer) (ws : List WriteAnswer) (ds : List ReadAnswer) : State :=
  { State.reset with transport := ⟨rs, ws, ds⟩ }

/-- Record D-1 of section 2.3: 25.25 degrees at 12 bits. -/
def record12 : Scratchpad := ⟨0x94, 0x01, 0x4B, 0x46, 0x7F, 0xFF, 0x0C, 0x10, 0x26⟩

/-- Another device, holding record D-1. -/
def otherDevice : Device := ⟨0x1122334455667788, record12, 0⟩

/-- Two devices, the first with the example address and the temperature bytes of P1. -/
def twoDevices : List Device := [⟨exampleAddr, { record12 with tempLsb := 0x97 }, 0⟩, otherDevice]

/-- The device side at a position, with a selection and the two devices. -/
def onBus (pos : BusPos) (sel : Selection) (line : List Byte) : State :=
  { State.reset with bus := ⟨pos, sel, twoDevices, line⟩ }

/-- A record in SP, in DECODE. -/
def decoding (sp : Scratchpad) : State := { State.reset with phase := .decode, sp := sp, req := 0xC2 }

/-- Record L1-2: record D-1 with a wrong CRC byte. -/
def recordBadCrc : Scratchpad := ⟨0x94, 0x01, 0x4B, 0x46, 0x7F, 0xFF, 0x0C, 0x10, 0x27⟩

/-- Record D-27: configuration 0x9F, CRC right. -/
def recordBadCfg : Scratchpad := ⟨0x94, 0x01, 0x4B, 0x46, 0x9F, 0xFF, 0x0C, 0x10, 0x6F⟩

/-- `TRIGGER *`, `READ *`, `SETRES *, 9` (W-1, W-3, W-5). -/
def bcast : ReqArgs := ⟨false, 0, true, true, 0⟩

/-- The same without a bus handle. -/
def noBus : ReqArgs := ⟨false, 0, false, true, 0⟩

/-- Addressed to the example address, 10 bits (W-7). -/
def addressed : ReqArgs := ⟨true, 1, true, true, exampleAddr⟩

/-! ## Well-formedness refuses -/

theorem test_wf_idx0_refuses : (Instr.cfgReadIdx0 0x20).wf = false := by decide
theorem test_wf_idx1_refuses : (Instr.cfgReadIdx1 0x1F).wf = false := by decide
theorem test_wf_idx2_refuses : (Instr.cfgReadIdx2 0x7F).wf = false := by decide
theorem test_wf_idx3_refuses : (Instr.cfgReadIdx3 0xE0).wf = false := by decide
theorem test_wf_outOfContract_refuses : (Instr.cfgReadOutOfContract 0x7F).wf = false := by decide

/-! ## Decoding: one word per constructor, written out from R80, R84, R90 and R144 -/

/-- W-2: addr, then out_valid 0, bus_valid 1, res 00, addr_valid 1, op 001. -/
theorem test_decode_trigger :
    decode (.request (0xEA051691604CFF28#64 ++ 0#1 ++ 1#1 ++ 0b00#2 ++ 1#1 ++ 0b001#3)) =
      .ok (.trigger ⟨true, 0, true, false, exampleAddr⟩) := by decide
/-- W-4. -/
theorem test_decode_readTemp :
    decode (.request (0xEA051691604CFF28#64 ++ 1#1 ++ 1#1 ++ 0b00#2 ++ 1#1 ++ 0b010#3)) =
      .ok (.readTemp ⟨true, 0, true, true, exampleAddr⟩) := by decide
/-- W-6: res 11. -/
theorem test_decode_setRes :
    decode (.request (0#64 ++ 0#1 ++ 1#1 ++ 0b11#2 ++ 0#1 ++ 0b011#3)) =
      .ok (.setRes ⟨false, 3, true, false, 0⟩) := by decide
/-- W-13. -/
theorem test_decode_reservedOp0 : decode (.request 0x40) = .ok (.reservedOp0 ⟨false, 0, true, false, 0⟩) := by decide
theorem test_decode_reservedOp4 : decode (.request 0x44) = .ok (.reservedOp4 ⟨false, 0, true, false, 0⟩) := by decide
/-- W-12. -/
theorem test_decode_reservedOp5 : decode (.request 0x45) = .ok (.reservedOp5 ⟨false, 0, true, false, 0⟩) := by decide
theorem test_decode_reservedOp6 : decode (.request 0x8E) = .ok (.reservedOp6 ⟨true, 0, false, true, 0⟩) := by decide
theorem test_decode_reservedOp7 : decode (.request 0x37) = .ok (.reservedOp7 ⟨false, 3, false, false, 0⟩) := by decide
theorem test_decode_skipRom : decode (.addressCommand 0b11001100) = .ok .skipRom := by decide
theorem test_decode_matchRom : decode (.addressCommand 0b01010101) = .ok .matchRom := by decide
theorem test_decode_convertT : decode (.functionCommand 0b01000100) = .ok .convertT := by decide
theorem test_decode_writeScratchpad : decode (.functionCommand 0b01001110) = .ok .writeScratchpad := by decide
theorem test_decode_readScratchpad : decode (.functionCommand 0b10111110) = .ok .readScratchpad := by decide
theorem test_decode_cfg9Bit : decode (.configWritten 0b00011111) = .ok .cfg9Bit := by decide
theorem test_decode_cfg10Bit : decode (.configWritten 0b00111111) = .ok .cfg10Bit := by decide
theorem test_decode_cfg11Bit : decode (.configWritten 0b01011111) = .ok .cfg11Bit := by decide
theorem test_decode_cfg12Bit : decode (.configWritten 0b01111111) = .ok .cfg12Bit := by decide
theorem test_decode_cfgReadIdx0 : decode (.configRead 0b00010110) = .ok (.cfgReadIdx0 0x16) := by decide
theorem test_decode_cfgReadIdx1 : decode (.configRead 0b00100000) = .ok (.cfgReadIdx1 0x20) := by decide
theorem test_decode_cfgReadIdx2 : decode (.configRead 0b01000001) = .ok (.cfgReadIdx2 0x41) := by decide
theorem test_decode_cfgReadIdx3 : decode (.configRead 0b01111111) = .ok (.cfgReadIdx3 0x7F) := by decide
theorem test_decode_outOfContract : decode (.configRead 0b10000000) = .ok (.cfgReadOutOfContract 0x80) := by decide
/-- R93: no other byte is a wire command. -/
theorem test_decode_refuses : decode (.addressCommand 0x44) = .error (.notAddressCommand 0x44) ∧
    decode (.functionCommand 0xCC) = .error (.notFunctionCommand 0xCC) ∧
    decode (.configWritten 0x00) = .error (.notConfiguration 0x00) := by decide

/-! ## The functions of the units, against sections 2.1 to 2.3 -/

/-- F-4, F-9, F-10. -/
theorem test_buildFrame :
    buildFrame (.addressed exampleAddr) 0x44 = [0x55, 0x28, 0xFF, 0x4C, 0x60, 0x91, 0x16, 0x05, 0xEA, 0x44] ∧
    buildFrame (.addressed 0x1122334455667788) 0xBE =
      [0x55, 0x88, 0x77, 0x66, 0x55, 0x44, 0x33, 0x22, 0x11, 0xBE] ∧
    buildFrame (.addressed 0x55CC55CC55CC55CC) 0x44 =
      [0x55, 0xCC, 0x55, 0xCC, 0x55, 0xCC, 0x55, 0xCC, 0x55, 0x44] := by decide
/-- D-CRC-3 to D-CRC-6, D-CRC-8 to D-CRC-10. -/
theorem test_crc8 :
    crc8 [0x01] = 0x5E ∧ crc8 [0x02] = 0xBC ∧ crc8 [0x80] = 0x8C ∧ crc8 [0xFF] = 0x35 ∧
    crc8 [0x50, 0x05, 0x4B, 0x46, 0x7F, 0xFF, 0x0C, 0x10] = 0x1C ∧
    crc8 [0xFF, 0xFF, 0xFF, 0xFF, 0xFF, 0xFF, 0xFF, 0xFF] = 0xC9 ∧
    crc8 [0x31, 0x32, 0x33, 0x34, 0x35, 0x36, 0x37, 0x38, 0x39] = 0xA1 := by decide +kernel
/-- D-9, D-13, D-29, D-35. -/
theorem test_decodeRecord :
    decodeRecord ⟨0xF9, 0xFF, 0x4B, 0x46, 0x1F, 0xFF, 0x0C, 0x10, 0x10⟩ = .temp (-8) ∧
    decodeRecord ⟨0x5E, 0xFF, 0x4B, 0x46, 0x3F, 0xFF, 0x0C, 0x10, 0x8A⟩ = .temp (-164) ∧
    decodeRecord ⟨0, 0, 0, 0, 0, 0, 0, 0, 0⟩ = .temp 0 ∧
    decodeRecord ⟨0x94, 0x01, 0x4B, 0x46, 0x9F, 0xFF, 0x0C, 0x10, 0x00⟩ = .badCrc := by decide +kernel
/-- The TEMP_F32 column of D-1, D-10, D-17, D-19, D-23. -/
theorem test_f32 :
    f32OfCount 404 = 0x41CA0000 ∧ f32OfCount (-7) = 0xBEE00000 ∧ f32OfCount 32767 = 0x44FFFE00 ∧
    f32OfCount (-32768) = 0xC5000000 ∧ f32OfCount 0 = 0x00000000 := by decide +kernel

/-! ## One step of each instruction -/

/-- T-1. -/
theorem test_trigger_ok : see outs (exec (.trigger bcast) (answered [.present] [.ok] [])) =
    some (.ok, .idle, [.reset .present, .write [0xCC, 0x44] .ok, .done .ok]) := by decide
/-- T-3. -/
theorem test_trigger_err : see (fun t => (outs t, t.xerr)) (exec (.trigger bcast) (answered [.present] [.err .known] [])) =
    some ((.transport, .idle, [.reset .present, .write [0xCC, 0x44] (.err .known), .done .transport]), some .known) := by
  decide
/-- R9, R205: with any type of error values the transport's own value is what XERR takes; here numbers, and the value 5. -/
theorem test_anyErrorType :
    ∃ t, stepOf { State.resetOf Nat with requests := [reqWord 1 bcast], transport := ⟨[.err 5], [], []⟩ } = .next t ∧
      t.xerr = some 5 ∧ t.trace = [.reset (.err 5), .done .transport] := ⟨_, rfl, rfl, rfl⟩
/-- P1, step 4: 10-bit masking of 0x0197. -/
theorem test_readTemp_ok :
    see (fun t => (t.status, t.tempQ4))
      (exec (.readTemp addressed)
        (answered [.present] [.ok] [.bytes ⟨0x97, 0x01, 0x00, 0x00, 0x3F, 0xFF, 0x0C, 0x10, 0xFB⟩])) =
    some (.ok, some 404) := by decide +kernel
/-- T-6. -/
theorem test_readTemp_badCrc :
    see (fun t => (t.status, t.phase, t.tempQ4))
      (exec (.readTemp bcast) (answered [.present] [.ok] [.bytes recordBadCrc])) =
    some (.invalidCrc, .idle, none) := by decide +kernel
/-- T-12. -/
theorem test_setRes_payloadErr : see outs (exec (.setRes bcast) (answered [.present] [.ok, .err .known] [])) =
    some (.transport, .idle, [.reset .present, .write [0xCC, 0x4E] .ok, .write [0x00, 0x00, 0x1F] (.err .known),
      .done .transport]) := by decide
/-- P1: the addressed device takes 00 00 3F, after which its record is the one that P1 reads back, CRC 0xFB; the other one
takes nothing. -/
theorem test_setRes_devices :
    see (fun t => t.bus.devices)
      (exec (.setRes addressed)
        { answered [.present] [.ok, .ok] [] with bus := ⟨.closed, .nobody, twoDevices, []⟩ }) =
    some [⟨exampleAddr, ⟨0x97, 0x01, 0x00, 0x00, 0x3F, 0xFF, 0x0C, 0x10, 0xFB⟩, 0⟩, otherDevice] := by
  decide +kernel
/-- O-1: ILLEGAL_OP comes before INVALID_ARGUMENT. -/
theorem test_reservedOp5 : see outs (exec (.reservedOp5 noBus) State.reset) =
    some (.illegalOp, .idle, [.done .illegalOp]) := by decide
/-- W-13. -/
theorem test_reservedOp0 : see outs (exec (.reservedOp0 bcast) State.reset) =
    some (.illegalOp, .idle, [.done .illegalOp]) := by decide
theorem test_reservedOp4 : see outs (exec (.reservedOp4 bcast) (answered [.absent] [] [])) =
    some (.illegalOp, .idle, [.done .illegalOp]) := by decide
theorem test_reservedOp6 : see outs (exec (.reservedOp6 bcast) State.reset) =
    some (.illegalOp, .idle, [.done .illegalOp]) := by decide
theorem test_reservedOp7 : see outs (exec (.reservedOp7 bcast) State.reset) =
    some (.illegalOp, .idle, [.done .illegalOp]) := by decide
/-- R115. -/
theorem test_skipRom_step : see (fun t => t.bus) (step (onBus .addressCommand .nobody [0xCC, 0x44])) =
    some ⟨.functionCommand, .everybody, twoDevices, [0x44]⟩ := by decide
/-- R116. -/
theorem test_matchRom_step : see (fun t => t.bus) (step (onBus .addressCommand .everybody [0x55])) =
    some ⟨.address [], .nobody, twoDevices, []⟩ := by decide
/-- R131: a conversion begins in the addressed device only. -/
theorem test_convertT_step :
    see (fun t => t.bus.devices.map Device.conversions) (step (onBus .functionCommand (.device exampleAddr) [0x44])) =
    some [1, 0] := by decide
/-- R184. -/
theorem test_writeScratchpad_step : see (fun t => t.bus.pos) (step (onBus .functionCommand .everybody [0x4E])) =
    some .th := by decide
/-- R152. -/
theorem test_readScratchpad_step : see (fun t => t.bus.pos) (step (onBus .functionCommand .everybody [0xBE])) =
    some .supplying := by decide
/-- R184: thresholds and configuration are taken together. -/
theorem test_cfg9Bit_step :
    see (fun t => t.bus.devices.map fun d => (d.registers.th, d.registers.tl, d.registers.configuration))
      (step (onBus (.configuration 0x00 0x01) (.device exampleAddr) [0x1F])) =
    some [(0x00, 0x01, 0x1F), (0x4B, 0x46, 0x7F)] := by decide
theorem test_cfg10Bit : see (fun t => t.bus.devices.map fun d => d.registers.configuration)
    (exec .cfg10Bit (onBus (.configuration 0 0) .everybody [])) = some [0x3F, 0x3F] := by decide
theorem test_cfg11Bit : see (fun t => t.bus.devices.map fun d => d.registers.configuration)
    (exec .cfg11Bit (onBus (.configuration 0 0) .everybody [])) = some [0x5F, 0x5F] := by decide
theorem test_cfg12Bit : see (fun t => t.bus.devices.map fun d => d.registers.configuration)
    (exec .cfg12Bit (onBus (.configuration 0 0) .nobody [])) = some [0x7F, 0x7F] := by decide
/-- D-4. -/
theorem test_cfgReadIdx0_step :
    see (fun t => (t.tempQ4, t.status)) (step (decoding ⟨0x94, 0x01, 0x4B, 0x46, 0x1F, 0xFF, 0x0C, 0x10, 0xB6⟩)) =
    some (some 400, .ok) := by decide +kernel
/-- D-24. -/
theorem test_cfgReadIdx1_step :
    see (fun t => (t.tempQ4, t.status)) (step (decoding ⟨0x0F, 0x00, 0x4B, 0x46, 0x3F, 0xFF, 0x0C, 0x10, 0xD2⟩)) =
    some (some 12, .ok) := by decide +kernel
/-- D-23. -/
theorem test_cfgReadIdx2_step :
    see (fun t => (t.tempQ4, t.status)) (step (decoding ⟨0x01, 0x00, 0x4B, 0x46, 0x5F, 0xFF, 0x0C, 0x10, 0xFB⟩)) =
    some (some 0, .ok) := by decide +kernel
/-- D-26. -/
theorem test_cfgReadIdx3_step :
    see (fun t => (t.tempQ4, t.status)) (step (decoding ⟨0x94, 0x01, 0x4B, 0x46, 0x60, 0xFF, 0x0C, 0x10, 0x84⟩)) =
    some (some 404, .ok) := by decide +kernel
/-- D-28. -/
theorem test_outOfContract_step :
    see (fun t => (t.tempQ4, t.status)) (step (decoding ⟨0x94, 0x01, 0x4B, 0x46, 0xFF, 0xFF, 0x0C, 0x10, 0xFF⟩)) =
    some (none, .configRange) := by decide +kernel
/-- D-35: the CRC check comes first. -/
theorem test_outOfContract_badCrc :
    see (fun t => (t.tempQ4, t.status)) (step (decoding ⟨0x94, 0x01, 0x4B, 0x46, 0x9F, 0xFF, 0x0C, 0x10, 0x00⟩)) =
    some (none, .invalidCrc) := by decide +kernel

/-! ## The host's two maps, on rows of the table -/

theorem test_tableWords :
    decodeTableWord 8 0x1 = some (.trigger ⟨false, 0, false, false, 0⟩) ∧
    decodeTableWord 8 0x7 = some (.reservedOp7 ⟨false, 0, false, false, 0⟩) ∧
    decodeTableWord 8 0x4E = some .writeScratchpad ∧ decodeTableWord 8 0x5F = some .cfg11Bit ∧
    decodeTableWord 8 0x60 = some (.cfgReadIdx3 0x60) ∧
    decodeTableWord 8 0x80 = some (.cfgReadOutOfContract 0x80) ∧
    decodeTableWord 72 0xEA051691604CFF28CA = some (.readTemp ⟨true, 0, true, true, exampleAddr⟩) := by decide
theorem test_placed_trigger : see outs (step (State.reset.withFetchWord 8 0x1)) =
    some (.invalidArgument, .idle, [.done .invalidArgument]) := by decide
theorem test_placed_cfgRead : see (fun t => (t.status, t.tempQ4)) (step (State.reset.withFetchWord 8 0x60)) =
    some (.ok, some 0) := by decide +kernel

/-! ## For every statement with hypotheses, values that meet them: one theorem each, a conjunct per clause -/

/-- The machine in phase `p` of the operation with code `op` and operands `a`, nothing answered yet. -/
def inPhase (p : Phase) (op : BitVec 3) (a : ReqArgs) : State :=
  { State.reset with phase := p, req := reqWord op a }

/-- SEND_FRAME of an addressed READ_TEMP, with every answer there. -/
def sendingFrame : State :=
  { inPhase .sendFrame 2 addressed with
      frame     := buildFrame (.addressed exampleAddr) 0xBE
      frameLen  := 10
      transport := ⟨[.present], [.ok, .err .known], [.bytes record12]⟩ }

theorem inv_sendingFrame : sendingFrame.Inv where
  inFlight _ := by refine ⟨Or.inr (Or.inl ?_), ?_, fun _ => ?_⟩ <;> decide
  frame _    := ⟨0xBE, by decide, by decide, by decide⟩
  payload h  := by cases h
  reading h  := by rcases h with h | h <;> cases h
  err h      := by cases h
  fresh _    := ⟨rfl, rfl⟩
  devices    := by decide
  address _ h := by cases h

theorem wit_StepKeepsInvariant : ∃ t, sendingFrame.Inv ∧ step sendingFrame = .next t :=
  ⟨_, inv_sendingFrame, rfl⟩

theorem wit_BlockResetAbandonsTheOperation (p : Phase) :
    let s := { inPhase p 3 bcast with resetLine := true }
    s.resetLine = true ∧ s.phase = p := ⟨rfl, rfl⟩

/-- For BlockResetAbandonsTheOperation and PhaseSequences: a payload in flight at the position a payload is taken from. -/
theorem wit_payloadInFlight :
    let s := { inPhase .sendPayload 3 bcast with
      resetLine := true, payload := ⟨0x00, 0x00, 0x1F⟩, bus := ⟨.th, .everybody, [otherDevice], []⟩ }
    s.resetLine = true ∧ s.phase = .sendPayload ∧ s.bus.pos = .th := ⟨rfl, rfl, rfl⟩

theorem wit_DecodeReadsBackEncode : (Instr.cfgReadIdx3 0x7F).wf = true ∧ (Instr.cfgReadIdx0 0x00).wf = true ∧
    (Instr.cfgReadOutOfContract 0x80).wf = true ∧ (Instr.setRes addressed).wf = true := by decide

theorem wit_EncodeReadsBackDecode : decode (.configRead 0xFF) = .ok (.cfgReadOutOfContract 0xFF) ∧
    decode (.configWritten 0x7F) = .ok .cfg12Bit := by decide

theorem wit_StepRunsTheRequest :
    let s := { State.reset with requests := [0x41, 0xC2] }
    s.resetLine = false ∧ s.bus.line = [] ∧ s.phase = .idle ∧ s.requests = 0x41 :: [0xC2] := by decide

theorem wit_StepRunsTheWireByte :
    (let s := onBus .addressCommand .nobody [0x55, 0x28]
     s.resetLine = false ∧ s.bus.line = 0x55 :: [0x28] ∧ s.bus.pos = .addressCommand ∧
       decode (.addressCommand 0x55) = .ok .matchRom) ∧
    (let s := onBus .functionCommand .everybody [0x4E]
     s.resetLine = false ∧ s.bus.line = 0x4E :: [] ∧ s.bus.pos = .functionCommand ∧
       decode (.functionCommand 0x4E) = .ok .writeScratchpad) ∧
    (let s := onBus (.configuration 0 0) .everybody [0x7F]
     s.resetLine = false ∧ s.bus.line = 0x7F :: [] ∧ s.bus.pos = .configuration 0 0 ∧
       decode (.configWritten 0x7F) = .ok .cfg12Bit) := by decide

theorem wit_StepRunsTheConfigurationByte :
    (decoding record12).resetLine = false ∧ (decoding record12).bus.line = [] ∧ (decoding record12).phase = .decode := by
  decide

theorem wit_StepWithoutAnInstruction :
    { State.reset with resetLine := true }.resetLine = true ∧
    (∃ s : State, s.resetLine = false ∧ s.bus.line = 0x28 :: [] ∧ ∃ got, s.bus.pos = .address got) ∧
    (∃ s : State, s.resetLine = false ∧ s.bus.line = 0x00 :: [] ∧ s.bus.pos = .th) ∧
    (∃ s : State, s.resetLine = false ∧ s.bus.line = 0x00 :: [] ∧ ∃ th, s.bus.pos = .tl th) ∧
    (∃ s : State, s.resetLine = false ∧ s.bus.line = 0x20 :: [] ∧ ∃ th tl, s.bus.pos = .configuration th tl) ∧
    (State.reset.resetLine = false ∧ State.reset.bus.line = [] ∧ State.reset.phase = .idle ∧
      State.reset.requests = []) ∧
    (∀ p : Phase, (inPhase p 3 bcast).resetLine = false ∧ (inPhase p 3 bcast).bus.line = [] ∧
      (inPhase p 3 bcast).phase = p) :=
  ⟨rfl, ⟨onBus (.address []) .nobody [0x28], rfl, rfl, _, rfl⟩, ⟨onBus .th .nobody [0x00], rfl, rfl, rfl⟩,
   ⟨onBus (.tl 0) .nobody [0x00], rfl, rfl, _, rfl⟩, ⟨onBus (.configuration 0 0) .nobody [0x20], rfl, rfl, _, _, rfl⟩,
   by decide, fun _ => ⟨rfl, rfl, rfl⟩⟩

theorem wit_PlacedWordRunsNext : decodeTableWord 8 0x3 = some (.setRes ⟨false, 0, false, false, 0⟩) ∧
    decodeTableWord 8 0x44 = some .convertT ∧ decodeTableWord 8 0xFF = some (.cfgReadOutOfContract 0xFF) := by decide

theorem wit_OnlyForeignBytesStopTheMachine :
    (onBus .closed .nobody []).bus.line = [] ∧
    (let s := onBus .closed .nobody [0xCC]; s.resetLine = false ∧ s.bus.line = 0xCC :: [] ∧ s.bus.pos = .closed) ∧
    (let s := onBus .supplying .nobody [0xCC]; s.resetLine = false ∧ s.bus.line = 0xCC :: [] ∧ s.bus.pos = .supplying) ∧
    (let s := onBus .addressCommand .nobody [0x44]
     s.resetLine = false ∧ s.bus.line = 0x44 :: [] ∧ s.bus.pos = .addressCommand) ∧
    (let s := onBus .functionCommand .nobody [0xCC]
     s.resetLine = false ∧ s.bus.line = 0xCC :: [] ∧ s.bus.pos = .functionCommand) := by decide

/-- For OnlyForeignBytesStopTheMachine: bytes that go on, and a block reset with a byte on the wire. -/
theorem wit_OnlyForeignBytesStopTheMachine_goesOn :
    (∃ t, step (onBus .addressCommand .nobody [0xCC]) = .next t) ∧
    (∃ t, step (onBus .functionCommand .nobody [0xBE]) = .next t) ∧
    (∃ t, step (onBus (.tl 0) .nobody [0x44]) = .next t) ∧
    { onBus .closed .nobody [0xCC] with resetLine := true }.resetLine = true :=
  ⟨⟨_, rfl⟩, ⟨_, rfl⟩, ⟨_, rfl⟩, rfl⟩

theorem wit_DispatchByOperationCode :
    reqOp 0x41 = 1 ∧ reqOp 0xC2 = 2 ∧ reqOp 0x43 = 3 ∧
    (State.reset.phase = .idle ∧ reqOp 0x40 ≠ 1 ∧ reqOp 0x40 ≠ 2 ∧ reqOp 0x40 ≠ 3) ∧
    (State.reset.phase = .idle ∧ reqOp 0x07 ≠ 1 ∧ reqOp 0x07 ≠ 2 ∧ reqOp 0x07 ≠ 3) ∧
    (inPhase .decode 2 bcast).phase ≠ .idle := by decide

/-- For TriggerRuns, ReadTempRuns and SetResRuns: both values of the checks, and every answer. -/
theorem wit_TriggerRuns_ReadTempRuns_SetResRuns :
    State.reset.phase = .idle ∧ noBus.busValid = false ∧ (⟨false, 0, true, false, 0⟩ : ReqArgs).outValid = false ∧
    (bcast.busValid = true ∧ bcast.outValid = true) ∧
    ((answered [] [] []).phase = .idle ∧ (answered [] [] []).transport.resets = []) ∧
    (answered [.absent] [] []).transport.resets = [.absent] ∧
    (answered [.err .known] [] []).transport.resets = [.err .known] ∧
    (answered [.present] [] []).transport.writes = [] ∧
    (answered [.present] [.err .known] []).transport.writes = [.err .known] ∧
    (answered [.present] [.ok] []).transport.reads = [] ∧
    (answered [.present] [.ok, .err .known] []).transport.writes = [.ok, .err .known] ∧
    (answered [.present] [.ok, .ok] []).transport.writes = [.ok, .ok] ∧
    (answered [.present] [.ok] [.err .known]).transport.reads = [.err .known] := by decide

/-- For ReadTempRuns: a record of each kind of answer of DECODE. -/
theorem wit_ReadTempRuns : decodeRecord record12 = .temp 404 ∧ decodeRecord recordBadCrc = .badCrc ∧
    decodeRecord recordBadCfg = .badCfg := by decide +kernel

/-- For ReservedRequestsEndAtOnce, OperationFrame, IgnoredFieldsHaveNoEffect, OnlySetResWritesDeviceRegisters and
TemperatureOnlyOnSuccess, which take a request in IDLE. -/
theorem wit_inIdle :
    State.reset.phase = .idle ∧
    (∃ t, exec (.reservedOp0 addressed) State.reset = .next t) ∧
    (∃ t, exec (.trigger addressed) State.reset = .next t) ∧
    (∃ t, exec (.setRes addressed) State.reset = .next t) ∧
    (∃ t, exec (.readTemp noBus) State.reset = .next t ∧ t.phase = .idle ∧ t.status ≠ .ok) ∧
    (answered [.absent] [] []).transport.resets.head? ≠ some .present ∧
    (answered [.present] [.err .known] []).transport.writes.head? ≠ some .ok :=
  ⟨rfl, ⟨_, rfl⟩, ⟨_, rfl⟩, ⟨_, rfl⟩, ⟨_, rfl, by decide, by decide⟩, by decide, by decide⟩

theorem wit_IgnoredFieldsHaveNoEffect :
    let a : ReqArgs := ⟨false, 0, true, true, 0⟩
    let b : ReqArgs := ⟨false, 0, true, true, 5⟩
    a ≠ b ∧ a.addrValid = b.addrValid ∧ a.busValid = b.busValid ∧ (a.addrValid = true → a.addr = b.addr) ∧
      a.outValid = b.outValid ∧ a.res = b.res := by decide

theorem wit_RequestsWaitWhileBusy : (inPhase .sendPayload 3 bcast).busy = true := by decide

theorem wit_FirstFailingCheckIsReported :
    let s := answered [.present] [.ok, .err .known] [.bytes recordBadCfg]
    s.phase = .idle ∧ s.transport.Ready :=
  ⟨rfl, by decide, by decide, by decide⟩

/-- For BuffersAfterAnOperation. -/
theorem wit_BuffersAfterAnOperation :
    let s := answered [.present] [.ok] [.bytes record12]
    s.phase = .idle ∧ addressed.busValid = true ∧ s.transport.resets = .present :: [] ∧ addressed.outValid = true ∧
      s.transport.writes = .ok :: [] ∧ s.transport.reads = .bytes record12 :: [] := by decide

/-- For WaitingChangesNothing: a READ_TEMP that waits for its read. -/
theorem wit_WaitingChangesNothing :
    let s := answered [.present] [.ok] []
    s.phase = .idle ∧ s.resetLine = false ∧ s.bus.line = [] ∧
      ∃ t, exec (.readTemp addressed) s = .next t ∧ t.busy = true :=
  ⟨rfl, rfl, rfl, _, rfl, by decide⟩

theorem wit_AnsweredOperationsEnd :
    sendingFrame.Inv ∧ sendingFrame.busy = true ∧ sendingFrame.resetLine = false ∧ sendingFrame.bus.line = [] ∧
      sendingFrame.transport.Ready :=
  ⟨inv_sendingFrame, by decide, rfl, rfl, by decide, by decide, by decide⟩

theorem wit_UnansweredOperationsWait :
    (let s := inPhase .reset 1 bcast; s.resetLine = false ∧ s.bus.line = [] ∧ s.phase = .reset ∧ s.transport.resets = []) ∧
    (let s := inPhase .sendFrame 1 bcast; s.phase = .sendFrame ∧ s.transport.writes = []) ∧
    (let s := inPhase .sendPayload 3 bcast; s.phase = .sendPayload ∧ s.transport.writes = []) ∧
    (let s := inPhase .readSp 2 bcast; s.phase = .readSp ∧ s.transport.reads = []) := by decide

/-- For PhaseSequences: its clauses for RESET, READ_SP and DECODE on states of the invariant, SEND_FRAME above. -/
theorem inv_reading (p : Phase) (h : p = .reset ∨ p = .readSp ∨ p = .decode) : (inPhase p 2 bcast).Inv where
  inFlight _ := by refine ⟨Or.inr (Or.inl ?_), ?_, fun _ => ?_⟩ <;> simp only [inPhase] <;> decide
  frame e    := by rcases h with h | h | h <;> subst h <;> cases e
  payload e  := by rcases h with h | h | h <;> subst h <;> cases e
  reading _  := by simp only [inPhase]; decide
  err e      := by cases e
  fresh _    := ⟨rfl, rfl⟩
  devices    := by simp only [inPhase]; decide
  address _ e := by cases e

/-- For PhaseSequences: SEND_PAYLOAD. -/
theorem inv_sendingPayload :
    { inPhase .sendPayload 3 bcast with
      payload := ⟨0x00, 0x00, 0x1F⟩, bus := ⟨.th, .everybody, [otherDevice], []⟩,
      transport := ⟨[], [.err .known], []⟩ }.Inv where
  inFlight _ := by refine ⟨Or.inr (Or.inr ?_), ?_, fun h => absurd h ?_⟩ <;> decide
  frame e    := by cases e
  payload _  := ⟨by decide, by decide⟩
  reading e  := by rcases e with e | e <;> cases e
  err e      := by cases e
  fresh _    := ⟨rfl, rfl⟩
  devices    := by decide
  address _ e := by cases e

/-- For PhaseSequences: IDLE; also ResetMeetsInvariant's own state. -/
theorem inv_idle : State.reset.Inv where
  inFlight h := by cases h
  frame e    := by cases e
  payload e  := by cases e
  reading e  := by rcases e with e | e <;> cases e
  err e      := by cases e
  fresh _    := ⟨rfl, rfl⟩
  devices    := by decide
  address _ e := by cases e

/-- For TemperatureOnlyOnSuccess, its second clause: a step that writes TEMP_Q4, from a state of the invariant. -/
theorem wit_TemperatureOnlyOnSuccess :
    let s := { inPhase .decode 2 bcast with sp := record12 }
    s.resetLine = false ∧ (∃ t, step s = .next t ∧ t.tempQ4 ≠ s.tempQ4) ∧ s.Inv :=
  ⟨rfl, ⟨_, rfl, by decide +kernel⟩, { inv_reading .decode (.inr (.inr rfl)) with }⟩

theorem wit_ErrorValueForwardedVerbatim :
    let s := { inPhase .reset 1 bcast with transport := ⟨[.err .known], [], []⟩ }
    s.resetLine = false ∧ ∃ t, step s = .next t ∧ t.xerr ≠ s.xerr :=
  ⟨rfl, _, rfl, by decide⟩

theorem wit_OutputsHeldWhileBusy :
    let s := { inPhase .reset 2 bcast with transport := ⟨[.present], [.ok], []⟩ }
    s.resetLine = false ∧ ∃ t, step s = .next t ∧ t.busy = true :=
  ⟨rfl, _, rfl, by decide⟩

theorem wit_OnlyFramesAndPayloadsAreWritten :
    ∃ t, sendingFrame.Inv ∧ step sendingFrame = .next t ∧ t.trace ≠ sendingFrame.trace :=
  ⟨_, inv_sendingFrame, rfl, by decide +kernel⟩

theorem wit_WrittenConfigurationsRun :
    (onBus (.configuration 0x4B 0x46) .everybody []).bus.pos = .configuration 0x4B 0x46 ∧
    ∀ th tl, (onBus .functionCommand .everybody []).bus.pos ≠ .configuration th tl :=
  ⟨rfl, fun _ _ h => by cases h⟩

/-- For TriggerStartsConversions, SetResConfiguresDevices, FailedFrameMayBeSentInPart and
FailedPayloadReachesOnlyTheAddressed. -/
theorem wit_devices :
    let s (ws : List WriteAnswer) := { answered [.present] ws [] with bus := ⟨.closed, .nobody, twoDevices, []⟩ }
    (∀ ws, (s ws).phase = .idle ∧ (s ws).transport.resets = .present :: [] ∧ (s ws).transport.writes = ws) ∧
    addressed.busValid = true ∧ addressed.outValid = true ∧ addressed.addrValid = true ∧ bcast.addrValid = false ∧
    (s []).bus.devices[1]? = some otherDevice ∧ otherDevice.addr ≠ addressed.addr :=
  ⟨fun _ => ⟨rfl, rfl, rfl⟩, by decide, by decide, by decide, by decide, by decide, by decide⟩

theorem wit_WireStepsLeaveTheBlock :
    let s := onBus (.address [0x28]) .nobody [0xFF, 0x4C]
    s.resetLine = false ∧ s.bus.line ≠ [] ∧ ∃ t, step s = .next t :=
  ⟨rfl, by decide, _, rfl⟩

theorem wit_ReadConfigurationsRun :
    crc8 record12.firstEight = record12.crc ∧ crc8 recordBadCrc.firstEight ≠ recordBadCrc.crc := by decide +kernel

/-- For DecodeEndsTheRead: a mismatch, each kind of index at its bounds, and both sides of bit 7. -/
theorem wit_DecodeEndsTheRead :
    (∀ sp, (decoding sp).resetLine = false ∧ (decoding sp).bus.line = [] ∧ (decoding sp).phase = .decode) ∧
    (0x1F : Byte) >>> 5 = 0 ∧ (0x3F : Byte) >>> 5 = 1 ∧ (0x5F : Byte) >>> 5 = 2 ∧ (0x7F : Byte) >>> 5 = 3 ∧
    (3 : Byte) < (0x80 : Byte) >>> 5 ∧ ¬ (3 : Byte) < (0x7F : Byte) >>> 5 :=
  ⟨fun _ => ⟨rfl, rfl, rfl⟩, by decide, by decide, by decide, by decide, by decide, by decide⟩

/-- The last bit of the last byte and the first bit of the first one. -/
theorem wit_CrcProperties :
    crcOk record12 = true ∧ { record12 with crc := 0xA6 }.bytes = record12.bytes.modify 8 (· ^^^ (1#8 <<< 7)) ∧
    { record12 with tempLsb := 0x95 }.bytes = record12.bytes.modify 0 (· ^^^ (1#8 <<< 0)) ∧
    [0x01, 0x02].length = [0xFF, 0xFF].length := by decide +kernel

theorem wit_MaskingRoundsDown : lsbMask 0 = some 0x07 ∧ lsbMask 1 = some 0x03 ∧ lsbMask 2 = some 0x01 ∧
    lsbMask 3 = some 0x00 := by decide

theorem wit_PackAndDecodeAgree :
    record12.configuration = packCfg 3 ∧ lsbMask ((3 : BitVec 2).setWidth 3) = some 0x00 ∧ crcOk record12 = true := by
  decide +kernel

end Sys2Proof.Tests
end

section
/-! What R40 gives after reset, and the numbers of the phases and statuses (R21, R26): the laws of the views `busy`,
`code`, `tempC` and `tempF32`, and the statements they settle. -/

namespace Sys2Proof.Machine

variable {E : Type}

@[simp] theorem State.reset_phase : State.reset.phase = .idle := rfl
@[simp] theorem State.reset_status : State.reset.status = .none := rfl
@[simp] theorem State.reset_xerr : State.reset.xerr = none := rfl
@[simp] theorem State.reset_tempQ4 : State.reset.tempQ4 = none := rfl

theorem State.busy_eq_true_iff (s : State E) : s.busy = true ↔ s.phase ≠ .idle := decide_eq_true_iff

theorem State.busy_eq_false_iff (s : State E) : s.busy = false ↔ s.phase = .idle := by
  rw [← Bool.not_eq_true, s.busy_eq_true_iff, not_not]

@[simp] theorem State.tempC_eq_none_iff (s : State E) : s.tempC = none ↔ s.tempQ4 = none :=
  Option.map_eq_none_iff

@[simp] theorem State.tempF32_eq_none_iff (s : State E) : s.tempF32 = none ↔ s.tempQ4 = none :=
  Option.map_eq_none_iff

theorem Phase.code_eq_zero_iff (p : Phase) : p.code = 0 ↔ p = .idle := by
  cases p <;> decide

theorem Phase.code_le_five (p : Phase) : p.code ≤ 5 := by
  cases p <;> decide

theorem Phase.code_ne_of_five_lt (p : Phase) {n : BitVec 3} (h : 5 < n) : p.code ≠ n :=
  fun e => BitVec.not_lt.mpr p.code_le_five (e ▸ h)

/-- Settles O1: the four reset values of R40, and what `busy`, the codes and the views make of them. -/
theorem resetValuesTheSpecGives : Obligations.ResetValuesTheSpecGives :=
  have notBusy : State.reset.busy = false := State.reset.busy_eq_false_iff.mpr State.reset_phase
  have noTempC : State.reset.tempC = none := State.reset.tempC_eq_none_iff.mpr State.reset_tempQ4
  have noTempF32 : State.reset.tempF32 = none := State.reset.tempF32_eq_none_iff.mpr State.reset_tempQ4
  ⟨State.reset_phase, rfl, notBusy, State.reset_status, rfl, State.reset_xerr, State.reset_tempQ4, noTempC, noTempF32⟩

/-- Settles O3: the tables are those of `Phase.code` and `Status.code`; no phase has a code above 5, and `busy` goes
by the one phase whose code is 0. -/
theorem codesOfPhaseAndStatus : Obligations.CodesOfPhaseAndStatus := by
  refine ⟨⟨rfl, rfl, rfl, rfl, rfl, rfl⟩, ⟨rfl, rfl, rfl, rfl, rfl, rfl, rfl, rfl⟩, fun p => ?notTaken, fun s => ?busy⟩
  case notTaken => exact ⟨p.code_ne_of_five_lt (by decide), p.code_ne_of_five_lt (by decide)⟩
  case busy => rw [s.busy_eq_true_iff, ne_eq, ne_eq, s.phase.code_eq_zero_iff]

end Sys2Proof.Machine
end

section
/-! How a request word is dispatched (R83, R98): taking a word in IDLE and while an operation is in flight, who writes
REQ, the rows of the operation codes, and the statements these settle. -/

namespace Sys2Proof.Machine

variable {E : Type}

/-! ### Taking a word -/

theorem State.take_of_idle {s : State E} (h : s.phase = .idle) (w : ReqWord) (body : State E → State E) :
    s.take w body = body (s.latch w) :=
  (take_cases w body s).elim And.right fun busy => absurd h busy.1

theorem State.take_of_not_idle {s : State E} (h : s.phase ≠ .idle) (w : ReqWord) (body : State E → State E) :
    s.take w body = s.withRequests (s.requests ++ [w]) :=
  (take_cases w body s).elim (fun idle => absurd idle.1 h) And.right

/-- A word whose operation ends at once, taken in IDLE, writes REQ, STATUS and the event: PHASE is IDLE and stays so. -/
theorem State.take_endWith_of_idle {s : State E} (h : s.phase = .idle) (w : ReqWord) (st : Status) :
    s.take w (State.endWith st) = { s with req := w, status := st, trace := s.trace ++ [.done st] } := by
  rw [State.take_of_idle h, State.endWith, State.latch, ← h]

/-! ### Only taking a request writes REQ (R32) -/

@[simp] theorem State.stepReset_req (s : State E) : s.stepReset.req = s.req := by
  rcases stepReset_cases s with ⟨_, h⟩ | ⟨_, _, h⟩ | ⟨_, _, _, h⟩ | ⟨_, _, _, h⟩ | ⟨_, _, _, _, h⟩ <;> simp [h]

@[simp] theorem State.afterFrame_req (s : State E) : s.afterFrame.req = s.req := by
  rcases afterFrame_cases s with ⟨_, h⟩ | ⟨_, h⟩ | ⟨_, h⟩ | ⟨_, h⟩ <;> simp [h]

@[simp] theorem State.stepSendFrame_req (s : State E) : s.stepSendFrame.req = s.req := by
  rcases stepSendFrame_cases s with ⟨_, h⟩ | ⟨_, _, h⟩ | ⟨_, _, _, h⟩ <;> simp [h]

@[simp] theorem State.stepSendPayload_req (s : State E) : s.stepSendPayload.req = s.req := by
  rcases stepSendPayload_cases s with ⟨_, h⟩ | ⟨_, _, h⟩ | ⟨_, _, _, h⟩ <;> simp [h]

@[simp] theorem State.stepReadSp_req (s : State E) : s.stepReadSp.req = s.req := by
  rcases stepReadSp_cases s with ⟨_, h⟩ | ⟨_, _, _, h⟩ | ⟨_, _, _, h⟩ <;> simp [h]

@[simp] theorem State.endDecode_req (d : Decoded) (s : State E) : (s.endDecode d).req = s.req := by
  rcases endDecode_cases d s with ⟨_, _, h⟩ | ⟨_, h⟩ | ⟨_, h⟩ <;> simp [h]

@[simp] theorem State.advance_req (s : State E) : s.advance.req = s.req := by
  rcases phase_cases s.phase with h | h | h | h | h | h
  · rw [advance_idle h]
  · rw [advance_decode h, State.stepDecode, State.endDecode_req]
  · rw [advance_reset h, State.stepReset_req]
  · rw [advance_sendFrame h, State.stepSendFrame_req]
  · rw [advance_sendPayload h, State.stepSendPayload_req]
  · rw [advance_readSp h, State.stepReadSp_req]

@[simp] theorem State.proceed_req (s : State E) : s.proceed.req = s.req :=
  proceed_induction (P := fun t => t.req = s.req) (fun t h => t.advance_req.trans h) rfl

@[simp] theorem requestBody_req (w : ReqWord) (s : State E) : (requestBody w s).req = s.req := by
  rcases requestBody_cases w s with ⟨_, h⟩ | ⟨_, _, h⟩ | ⟨_, h⟩ <;> simp [h]

/-! ### The rows by their operation code (R82, R83) -/

theorem decodeRequest_of_op_one {w : ReqWord} (h : reqOp w = 1) : decodeRequest w = .trigger (reqArgs w) := by
  simp [decodeRequest, h]

theorem decodeRequest_of_op_two {w : ReqWord} (h : reqOp w = 2) : decodeRequest w = .readTemp (reqArgs w) := by
  simp [decodeRequest, h]

theorem decodeRequest_of_op_three {w : ReqWord} (h : reqOp w = 3) : decodeRequest w = .setRes (reqArgs w) := by
  simp [decodeRequest, h]

theorem requestBody_of_reserved {w : ReqWord} (h₁ : reqOp w ≠ 1) (h₂ : reqOp w ≠ 2) (h₃ : reqOp w ≠ 3) :
    requestBody w = State.endWith (E := E) .illegalOp := by
  rw [requestBody, if_neg (not_or.mpr ⟨h₁, h₃⟩), if_neg h₂]

theorem exec_decodeRequest_of_idle {s : State} (h : s.phase = .idle) (w : ReqWord) :
    exec (decodeRequest w) s = .next (requestBody w (s.latch w)) := by
  rw [exec_decodeRequest, State.take_of_idle h]

theorem exec_decodeRequest_of_not_idle {s : State} (h : s.phase ≠ .idle) (w : ReqWord) :
    exec (decodeRequest w) s = .next (s.withRequests (s.requests ++ [w])) := by
  rw [exec_decodeRequest, State.take_of_not_idle h]

/-- Settles O18: in IDLE the word is latched and what follows keeps REQ; while busy only the request port changes. -/
theorem dispatchByOperationCode : Obligations.DispatchByOperationCode := by
  refine fun w s => ⟨decodeRequest_of_op_one, decodeRequest_of_op_two, decodeRequest_of_op_three, fun h => ?idle,
    fun h => ?inFlight⟩
  case idle =>
    have latched : (requestBody w (s.latch w)).req = w := by rw [requestBody_req, State.latch_req]
    exact ⟨_, exec_decodeRequest_of_idle h w, latched,
      fun h₁ h₂ h₃ => congrFun (requestBody_of_reserved h₁ h₂ h₃) (s.latch w)⟩
  case inFlight => exact ⟨_, exec_decodeRequest_of_not_idle h w, rfl, rfl⟩

/-- Settles O24: each of the five rows takes its word and ends with ILLEGAL_OP. -/
theorem reservedRequestsEndAtOnce : Obligations.ReservedRequestsEndAtOnce := fun a s h =>
  have ends (op : BitVec 3) :
      Host.Outcome.next (s.take (reqWord op a) (State.endWith .illegalOp)) =
        (.next { s with req := reqWord op a, status := .illegalOp, trace := s.trace ++ [.done .illegalOp] } :
          Host.Outcome State Fault Refusal) :=
    congrArg _ (State.take_endWith_of_idle h (reqWord op a) .illegalOp)
  ⟨ends 0, ends 4, ends 5, ends 6, ends 7⟩

end Sys2Proof.Machine
end

section
/-! The frame builder (R110): the target an operation takes from its request, the frame's two forms and its two lengths,
and the statement they settle. -/

namespace Sys2Proof.Machine

/-! ### The target (R110, R130) -/

theorem targetOf_of_not_addrValid {a : ReqArgs} (h : a.addrValid = false) : targetOf a = .broadcast :=
  if_neg (Bool.eq_false_iff.mp h)

theorem targetOf_of_addrValid {a : ReqArgs} (h : a.addrValid = true) : targetOf a = .addressed a.addr :=
  if_pos h

/-! ### The bytes and their number (R85, R86) -/

@[simp] theorem addrBytes_length (a : Addr) : (addrBytes a).length = 8 := rfl

@[simp] theorem buildFrame_broadcast (cmd : Byte) : buildFrame .broadcast cmd = [0xCC, cmd] := rfl

@[simp] theorem buildFrame_addressed (a : Addr) (cmd : Byte) :
    buildFrame (.addressed a) cmd = 0x55 :: (addrBytes a ++ [cmd]) := rfl

theorem addrBytes_eq_extractLsb' (a : Addr) :
    addrBytes a =
      [a.extractLsb' 0 8, a.extractLsb' 8 8, a.extractLsb' 16 8, a.extractLsb' 24 8,
       a.extractLsb' 32 8, a.extractLsb' 40 8, a.extractLsb' 48 8, a.extractLsb' 56 8] := rfl

theorem buildFrame_broadcast_length (cmd : Byte) : (buildFrame .broadcast cmd).length = 2 := by
  rw [buildFrame_broadcast, List.length_cons, List.length_singleton]

theorem buildFrame_addressed_length (a : Addr) (cmd : Byte) : (buildFrame (.addressed a) cmd).length = 10 := by
  rw [buildFrame_addressed, List.length_cons, List.length_append, addrBytes_length, List.length_singleton]

/-- Settles O11: each form by its own equation and length, the target by `addrValid`; the sequencer loads the frame of
the target in REQ. -/
theorem buildFrameForms : Obligations.BuildFrameForms := by
  refine fun cmd => ⟨buildFrame_broadcast cmd, buildFrame_broadcast_length cmd, fun a => ⟨?bytes,
    buildFrame_addressed_length a cmd, fun _ => ⟨targetOf_of_not_addrValid, targetOf_of_addrValid⟩,
    fun s => ⟨s.loadFrame_frame cmd, s.loadFrame_frameLen cmd⟩⟩⟩
  case bytes =>
    simp only [buildFrame_addressed, addrBytes_eq_extractLsb', List.cons_append, List.nil_append]

end Sys2Proof.Machine
end

section
/-! An operation from RESET on, up to its written frame (R22, R51, R111), the same for all three operations: where going on
through phases comes to rest, the states an operation passes through, and everything it can do. Then TRIGGER (R130). -/

namespace Sys2Proof.Machine

variable {E : Type}

/-! ### Where going on through phases comes to rest -/

theorem advances_of_advance_eq {s : State E} (h : s.advance = s) : ∀ n, s.advances n = s
  | 0     => rfl
  | n + 1 => by rw [State.advances, h, advances_of_advance_eq h n]

theorem advances_of_idle {s : State E} (h : s.phase = .idle) (n : Nat) : s.advances n = s :=
  advances_of_advance_eq (advance_idle h) n

theorem proceed_of_advance_idle {s : State E} (h : s.advance.phase = .idle) : s.proceed = s.advance :=
  advances_of_idle h 3

/-! ### One transaction, by its answer -/

theorem stepReset_of_unanswered {s : State E} (h : s.transport.resets = []) : s.stepReset = s := by
  simp [State.stepReset, h]

theorem stepReset_of_absent {s : State E} {rs : List (ResetAnswer E)} (h : s.transport.resets = .absent :: rs) :
    s.stepReset = (s.didReset .absent rs).endWith .notFound := by
  simp [State.stepReset, h]

theorem stepReset_of_err {s : State E} {e : E} {rs : List (ResetAnswer E)} (h : s.transport.resets = .err e :: rs) :
    s.stepReset = (s.didReset (.err e) rs).endTransport e := by
  simp [State.stepReset, h]

theorem stepReset_of_present {s : State E} {cmd : Byte} {rs : List (ResetAnswer E)}
    (h : s.transport.resets = .present :: rs) (hc : s.command = some cmd) :
    s.stepReset = (s.didReset .present rs).loadFrame cmd := by
  simp [State.stepReset, h, hc]

theorem stepSendFrame_of_unanswered {s : State E} (h : s.transport.writes = []) : s.stepSendFrame = s := by
  simp [State.stepSendFrame, h]

theorem stepSendFrame_of_ok {s : State E} {ws : List (WriteAnswer E)} (h : s.transport.writes = .ok :: ws) :
    s.stepSendFrame = ((s.didWrite s.frameBytes .ok ws).sendAll s.frameBytes).afterFrame := by
  simp [State.stepSendFrame, h]

theorem stepSendFrame_of_err {s : State E} {e : E} {ws : List (WriteAnswer E)} (h : s.transport.writes = .err e :: ws) :
    s.stepSendFrame = ((s.didWrite s.frameBytes (.err e) ws).sendPart s.frameBytes).endTransport e := by
  simp [State.stepSendFrame, h]

theorem afterFrame_of_op_one {s : State E} (h : reqOp s.req = 1) : s.afterFrame = s.endWith .ok := if_pos h

/-! ### The states an operation passes through -/

/-- The operation `op` on `a`, presented in `s`, has passed its checks: its bus reset comes next (R208). -/
def State.began (op : BitVec 3) (a : ReqArgs) (s : State E) : State E := (s.latch (reqWord op a)).enter .reset

/-- Its bus reset has been answered `Present`, with `rs` still to come: its frame comes next (R51, R110). -/
def State.framed (op : BitVec 3) (a : ReqArgs) (cmd : Byte) (rs : List (ResetAnswer E)) (s : State E) : State E :=
  ((s.began op a).didReset .present rs).loadFrame cmd

/-- Its frame write has been answered `w`, with `ws` still to come; what it does to the devices is not in it yet (R57). -/
def State.wroteFrame (op : BitVec 3) (a : ReqArgs) (cmd : Byte) (rs : List (ResetAnswer E)) (w : WriteAnswer E)
    (ws : List (WriteAnswer E)) (s : State E) : State E :=
  (s.framed op a cmd rs).didWrite (buildFrame (targetOf a) cmd) w ws

section
variable (op : BitVec 3) (a : ReqArgs) (cmd : Byte) (rs : List (ResetAnswer E)) (w : WriteAnswer E)
  (ws : List (WriteAnswer E)) (s : State E)

theorem State.start_true_latch : (s.latch (reqWord op a)).start true = (s.began op a).proceed := rfl

@[simp] theorem State.began_phase : (s.began op a).phase = .reset := rfl

@[simp] theorem State.began_command : (s.began op a).command = commandOf op :=
  congrArg commandOf (reqOp_reqWord op a)

@[simp] theorem State.framed_phase : (s.framed op a cmd rs).phase = .sendFrame := rfl
@[simp] theorem State.framed_trace : (s.framed op a cmd rs).trace = s.trace ++ [.reset .present] := rfl

@[simp] theorem State.framed_frame : (s.framed op a cmd rs).frame = buildFrame (targetOf a) cmd :=
  congrArg (fun r => buildFrame (targetOf r) cmd) (reqArgs_reqWord op a)

@[simp] theorem State.framed_frameLen : (s.framed op a cmd rs).frameLen = (buildFrame (targetOf a) cmd).length :=
  congrArg List.length (s.framed_frame op a cmd rs)

@[simp] theorem State.framed_frameBytes : (s.framed op a cmd rs).frameBytes = buildFrame (targetOf a) cmd := by
  rw [State.frameBytes, State.framed_frame, State.framed_frameLen, List.take_length]

@[simp] theorem State.wroteFrame_trace : (s.wroteFrame op a cmd rs w ws).trace =
    s.trace ++ [.reset .present, .write (buildFrame (targetOf a) cmd) w] := by
  simp [State.wroteFrame]

end

/-! ### Everything an operation can do up to its written frame -/

/-- Out of RESET with a device present, the frame is loaded. -/
theorem began_advance_of_present {op : BitVec 3} {cmd : Byte} (hc : commandOf op = some cmd) (a : ReqArgs)
    {s : State E} {rs : List (ResetAnswer E)} (hr : s.transport.resets = .present :: rs) :
    (s.began op a).advance = s.framed op a cmd rs := by
  have hcommand : (s.began op a).command = some cmd := (s.began_command op a).trans hc
  exact (advance_reset (s.began_phase op a)).trans (stepReset_of_present hr hcommand)

/-- Everything that follows the check of an operation with command byte `cmd`. After a frame that was written two steps
out of phases are left, which differ from operation to operation. -/
theorem began_proceed_cases {op : BitVec 3} {cmd : Byte} (hc : commandOf op = some cmd) (a : ReqArgs) (s : State E) :
    (s.transport.resets = [] ∧ (s.began op a).proceed = s.began op a) ∨
    (∃ rs, s.transport.resets = .absent :: rs ∧
      (s.began op a).proceed = ((s.began op a).didReset .absent rs).endWith .notFound) ∨
    (∃ e rs, s.transport.resets = .err e :: rs ∧
      (s.began op a).proceed = ((s.began op a).didReset (.err e) rs).endTransport e) ∨
    (∃ rs, s.transport.resets = .present :: rs ∧ s.transport.writes = [] ∧
      (s.began op a).proceed = s.framed op a cmd rs) ∨
    (∃ rs e ws, s.transport.resets = .present :: rs ∧ s.transport.writes = .err e :: ws ∧
      (s.began op a).proceed =
        ((s.wroteFrame op a cmd rs (.err e) ws).sendPart (buildFrame (targetOf a) cmd)).endTransport e) ∨
    (∃ rs ws, s.transport.resets = .present :: rs ∧ s.transport.writes = .ok :: ws ∧
      (s.began op a).proceed =
        (((s.wroteFrame op a cmd rs .ok ws).sendAll (buildFrame (targetOf a) cmd)).afterFrame).advances 2) := by
  have hreset : (s.began op a).advance = (s.began op a).stepReset := advance_reset (s.began_phase op a)
  rcases hr : s.transport.resets with _ | ⟨_ | _ | e, rs⟩
  case nil =>
    exact .inl ⟨rfl, proceed_of_advance_eq (hreset.trans (stepReset_of_unanswered hr))⟩
  case cons.absent =>
    have h := hreset.trans (stepReset_of_absent hr)
    exact .inr (.inl ⟨rs, rfl, by rw [proceed_of_advance_idle (by rw [h]; rfl), h]⟩)
  case cons.err =>
    have h := hreset.trans (stepReset_of_err hr)
    exact .inr (.inr (.inl ⟨e, rs, rfl, by rw [proceed_of_advance_idle (by rw [h]; rfl), h]⟩))
  case cons.present =>
    have hproceed : (s.began op a).proceed = (s.framed op a cmd rs).advances 3 := by
      rw [State.proceed, State.advances, began_advance_of_present hc a hr]
    have hsend : (s.framed op a cmd rs).advance = (s.framed op a cmd rs).stepSendFrame :=
      advance_sendFrame (s.framed_phase op a cmd rs)
    refine .inr (.inr (.inr ?_))
    rcases hw : s.transport.writes with _ | ⟨_ | e, ws⟩
    case nil =>
      have h := hsend.trans (stepSendFrame_of_unanswered hw)
      exact .inl ⟨rs, rfl, rfl, hproceed.trans (advances_of_advance_eq h 3)⟩
    case cons.err =>
      have h := hsend.trans (stepSendFrame_of_err hw)
      rw [State.framed_frameBytes] at h
      exact .inr (.inl ⟨rs, e, ws, rfl, rfl, by rw [hproceed, State.advances, h, advances_of_idle rfl]; rfl⟩)
    case cons.ok =>
      have h := hsend.trans (stepSendFrame_of_ok hw)
      rw [State.framed_frameBytes] at h
      exact .inr (.inr ⟨rs, ws, rfl, rfl, by rw [hproceed, State.advances, h]; rfl⟩)

/-! ### Ending and waiting -/

theorem ended_endWith {s u : State E} {evs : List (Event E)} (st : Status) (ht : u.trace = s.trace ++ evs)
    (hx : u.xerr = s.xerr) : Ended s (u.endWith st) evs st s.xerr :=
  ⟨rfl, rfl, hx, by rw [State.endWith_trace, ht]⟩

theorem ended_endTransport {s u : State E} {evs : List (Event E)} (e : E) (ht : u.trace = s.trace ++ evs) :
    Ended s (u.endTransport e) evs .transport (some e) :=
  ⟨rfl, rfl, rfl, by rw [State.endTransport_trace, ht]⟩

theorem waiting_began (op : BitVec 3) (a : ReqArgs) (s : State E) : Waiting s (s.began op a) [] .reset :=
  ⟨rfl, rfl, rfl, (List.append_nil s.trace).symm⟩

theorem waiting_framed (op : BitVec 3) (a : ReqArgs) (cmd : Byte) (rs : List (ResetAnswer E)) (s : State E) :
    Waiting s (s.framed op a cmd rs) [.reset .present] .sendFrame :=
  ⟨rfl, rfl, rfl, rfl⟩

/-! ### TRIGGER (R130) -/

theorem exec_trigger_of_idle {s : State} (h : s.phase = .idle) (a : ReqArgs) :
    exec (.trigger a) s = .next ((s.latch (reqWord 1 a)).start a.busValid) :=
  congrArg Host.Outcome.next (State.take_of_idle h (reqWord 1 a) (State.start a.busValid))

/-- TRIGGER ends with its written frame: it has nothing to read and no payload. -/
theorem trigger_afterFrame_advances (a : ReqArgs) (cmd : Byte) (rs : List (ResetAnswer E)) (ws : List (WriteAnswer E))
    (l : List Byte) (s : State E) :
    (((s.wroteFrame 1 a cmd rs .ok ws).sendAll l).afterFrame).advances 2 =
      ((s.wroteFrame 1 a cmd rs .ok ws).sendAll l).endWith .ok := by
  rw [afterFrame_of_op_one (reqOp_reqWord 1 a), advances_of_idle (State.endWith_phase _ _)]

/-- What TRIGGER leaves unchanged, besides writing REQ, whatever is answered. -/
theorem trigger_keeps {a : ReqArgs} {s t : State E} (h : (s.latch (reqWord 1 a)).start a.busValid = t) :
    t.req = reqWord 1 a ∧ t.tempQ4 = s.tempQ4 ∧ t.payload = s.payload ∧ t.sp = s.sp ∧ t.requests = s.requests := by
  subst h
  cases a.busValid
  case false => exact ⟨rfl, rfl, rfl, rfl, rfl⟩
  case true =>
    rw [State.start_true_latch]
    rcases began_proceed_cases (rfl : commandOf 1 = some convertTByte) a s with
      ⟨_, ht⟩ | ⟨_, _, ht⟩ | ⟨_, _, _, ht⟩ | ⟨_, _, _, ht⟩ | ⟨_, _, _, _, _, ht⟩ | ⟨_, _, _, _, ht⟩ <;> rw [ht]
    case' inr.inr.inr.inr.inr => rw [trigger_afterFrame_advances]
    all_goals exact ⟨rfl, rfl, rfl, rfl, rfl⟩

/-- Settles O20: without a handle TRIGGER ends at once; with one it does what `began_proceed_cases` says, and a written
frame ends it. -/
theorem triggerRuns : Obligations.TriggerRuns := by
  intro a s h
  obtain ⟨hreq, htemp, hpayload, hsp, hrequests⟩ := trigger_keeps (a := a) (s := s) rfl
  refine ⟨_, exec_trigger_of_idle h a, hreq, htemp, hpayload, hsp, hrequests, fun hv => ?invalid, fun hv => ?valid⟩
  case invalid =>
    rw [hv]
    exact ⟨ended_endWith _ (List.append_nil s.trace).symm rfl, rfl, rfl⟩
  case valid =>
    rw [hv, State.start_true_latch]
    rcases began_proceed_cases (rfl : commandOf 1 = some convertTByte) a s with
      ⟨hr, ht⟩ | ⟨rs, hr, ht⟩ | ⟨e, rs, hr, ht⟩ | ⟨rs, hr, hw, ht⟩ | ⟨rs, e, ws, hr, hw, ht⟩ | ⟨rs, ws, hr, hw, ht⟩
    · rw [ht, hr]
      exact waiting_began 1 a s
    · rw [ht, hr]
      exact ended_endWith _ rfl rfl
    · rw [ht, hr]
      exact ended_endTransport e rfl
    · rw [ht, hr, hw]
      exact ⟨waiting_framed 1 a _ rs s, s.framed_frame 1 a _ rs, s.framed_frameLen 1 a _ rs⟩
    · rw [ht, hr, hw]
      exact ended_endTransport e (s.wroteFrame_trace 1 a _ rs _ ws)
    · rw [ht, trigger_afterFrame_advances, hr, hw]
      exact ended_endWith _ (s.wroteFrame_trace 1 a _ rs _ ws) rfl

end Sys2Proof.Machine
end

section
/-! The end of a read in DECODE (R142 to R147, R155): which mask a configuration byte selects, what DECODE answers, and the
step that ends READ_TEMP there. -/

namespace Sys2Proof.Machine

/-! ### The resolution index (R144, R145) -/

theorem cfgIndex_eq_setWidth_shift (b : Byte) : cfgIndex b = (b >>> 5).setWidth 3 := rfl

theorem lsbMask_cfgIndex_of_shift {b mask : Byte}
    (h : (b >>> 5 = 0 ∧ mask = 0x07) ∨ (b >>> 5 = 1 ∧ mask = 0x03) ∨ (b >>> 5 = 2 ∧ mask = 0x01) ∨
      (b >>> 5 = 3 ∧ mask = 0x00)) : lsbMask (cfgIndex b) = some mask := by
  rw [cfgIndex_eq_setWidth_shift]
  rcases h with ⟨hb, rfl⟩ | ⟨hb, rfl⟩ | ⟨hb, rfl⟩ | ⟨hb, rfl⟩ <;> rw [hb] <;> decide

theorem lsbMask_eq_none_iff (idx : BitVec 3) : lsbMask idx = none ↔ 3 < idx := by
  revert idx; decide

theorem three_lt_shift_iff_le_toNat (b : Byte) : (3 : Byte) < b >>> 5 ↔ 128 ≤ b.toNat := by
  rw [BitVec.lt_def, BitVec.toNat_ushiftRight, Nat.shiftRight_eq_div_pow]
  have : (3 : Byte).toNat = 3 := rfl
  omega

/-- An index is out of contract exactly when bit 7 is set (R145). -/
theorem three_lt_shift_iff_bit_seven (b : Byte) : (3 : Byte) < b >>> 5 ↔ b.getLsbD 7 = true := by
  rw [three_lt_shift_iff_le_toNat, ← BitVec.msb_eq_getLsbD_last (x := b), BitVec.msb_eq_decide, decide_eq_true_iff]

theorem three_lt_cfgIndex_iff (b : Byte) : 3 < cfgIndex b ↔ (3 : Byte) < b >>> 5 := by
  rw [three_lt_shift_iff_le_toNat, cfgIndex, BitVec.lt_def, BitVec.extractLsb'_toNat, Nat.shiftRight_eq_div_pow]
  have : (3 : BitVec 3).toNat = 3 := rfl
  have := b.isLt
  omega

/-! ### What DECODE answers (R151, R155) -/

theorem crcOk_iff (sp : Scratchpad) : crcOk sp = true ↔ crc8 sp.firstEight = sp.crc := decide_eq_true_iff

theorem decodeRecord_of_crc_ne {sp : Scratchpad} (h : crc8 sp.firstEight ≠ sp.crc) : decodeRecord sp = .badCrc :=
  if_neg (mt (crcOk_iff sp).mp h)

theorem decodeRecord_of_mask {sp : Scratchpad} {mask : Byte} (h : crc8 sp.firstEight = sp.crc)
    (hm : lsbMask (cfgIndex sp.configuration) = some mask) : decodeRecord sp = .temp (countOf mask sp) := by
  rw [decodeRecord, decodeWithIndex, if_pos ((crcOk_iff sp).mpr h), hm]

theorem decodeRecord_of_no_mask {sp : Scratchpad} (h : crc8 sp.firstEight = sp.crc)
    (hm : lsbMask (cfgIndex sp.configuration) = none) : decodeRecord sp = .badCfg := by
  rw [decodeRecord, decodeWithIndex, if_pos ((crcOk_iff sp).mpr h), hm]

/-! ### The step (R153) -/

/-- With nothing on the wire and no block reset, a step in DECODE ends the read with what DECODE answers. -/
theorem step_of_decode {s : State} (hr : s.resetLine = false) (hl : s.bus.line = []) (hp : s.phase = .decode)
    {d : Decoded} (hd : decodeRecord s.sp = d) : step s = .next (s.endDecode d) := by
  rw [step_quiet hr hl, hp, ← hd]
  exact exec_decodeConfigRead s

/-- Settles O50: the step ends the read with DECODE's answer, which is a mismatch, a count by the mask of the index, or an
index with no mask. -/
theorem decodeEndsTheRead : Obligations.DecodeEndsTheRead := by
  refine fun s hr hl hp => ⟨fun hc => ?mismatch, fun hc => ⟨fun mask hm => ?count, fun hi => ?outOfContract⟩,
    three_lt_shift_iff_bit_seven s.sp.configuration⟩
  case mismatch => exact step_of_decode hr hl hp (decodeRecord_of_crc_ne hc)
  case count => exact step_of_decode hr hl hp (decodeRecord_of_mask hc (lsbMask_cfgIndex_of_shift hm))
  case outOfContract =>
    have noMask := (lsbMask_eq_none_iff _).mpr ((three_lt_cfgIndex_iff s.sp.configuration).mpr hi)
    exact step_of_decode hr hl hp (decodeRecord_of_no_mask hc noMask)

end Sys2Proof.Machine
end

section
/-! READ_TEMP (R153) after its written frame: the read of the record, and what each of its answers ends or waits with. -/

namespace Sys2Proof.Machine

variable {E : Type}

/-! ### From READ_SP to the end -/

theorem afterFrame_of_op_two {s : State E} (h : reqOp s.req = 2) : s.afterFrame = s.enter .readSp := by
  rcases afterFrame_cases s with ⟨h₁, _⟩ | ⟨_, hs⟩ | ⟨h₃, _⟩ | ⟨⟨_, h₂, _⟩, _⟩
  · exact absurd (h ▸ h₁) (by decide)
  · exact hs
  · exact absurd (h ▸ h₃) (by decide)
  · exact absurd h h₂

/-- Out of READ_SP two steps are left: the read waits, fails, or its record is decoded. -/
theorem readSp_advances_cases {s : State E} (h : s.phase = .readSp) :
    (s.transport.reads = [] ∧ s.advances 2 = s) ∨
    (∃ e ds, s.transport.reads = .err e :: ds ∧ s.advances 2 = (s.didRead (.err e) ds).endTransport e) ∨
    (∃ sp ds, s.transport.reads = .bytes sp :: ds ∧
      s.advances 2 = ((s.didRead (.bytes sp) ds).loadRecord sp).endDecode (decodeRecord sp)) := by
  have hread := advance_readSp h
  rcases stepReadSp_cases s with ⟨hr, hs⟩ | ⟨sp, ds, hr, hs⟩ | ⟨e, ds, hr, hs⟩
  · exact .inl ⟨hr, advances_of_advance_eq (hread.trans hs) 2⟩
  · refine .inr (.inr ⟨sp, ds, hr, ?_⟩)
    rw [State.advances, hread, hs, State.advances, advance_decode (State.loadRecord_phase _ _)]
    rfl
  · exact .inr (.inl ⟨e, ds, hr, by rw [State.advances, hread, hs, advances_of_idle (State.endTransport_phase _ _)]⟩)

/-- READ_TEMP, presented in `s`, has written its frame, with `rs` and `ws` still to come: its read comes next (R153). -/
def State.reading (a : ReqArgs) (rs : List (ResetAnswer E)) (ws : List (WriteAnswer E)) (s : State E) : State E :=
  ((s.wroteFrame 2 a readScratchpadByte rs .ok ws).sendAll (buildFrame (targetOf a) readScratchpadByte)).enter .readSp

/-- READ_TEMP goes on from its written frame to the read. -/
theorem readTemp_afterFrame_advances (a : ReqArgs) (rs : List (ResetAnswer E)) (ws : List (WriteAnswer E))
    (s : State E) :
    (((s.wroteFrame 2 a readScratchpadByte rs .ok ws).sendAll
      (buildFrame (targetOf a) readScratchpadByte)).afterFrame).advances 2 = (s.reading a rs ws).advances 2 :=
  congrArg (State.advances 2) (afterFrame_of_op_two (reqOp_reqWord 2 a))

section
variable (a : ReqArgs) (rs : List (ResetAnswer E)) (ws : List (WriteAnswer E)) (s : State E)

@[simp] theorem State.reading_trace : (s.reading a rs ws).trace =
    s.trace ++ [.reset .present, .write (buildFrame (targetOf a) readScratchpadByte) .ok] :=
  s.wroteFrame_trace 2 a readScratchpadByte rs .ok ws

/-- Everything READ_TEMP can do once its frame is written, by the answer to its read. -/
theorem reading_advances_cases :
    (s.transport.reads = [] ∧ (s.reading a rs ws).advances 2 = s.reading a rs ws) ∨
    (∃ e ds, s.transport.reads = .err e :: ds ∧
      (s.reading a rs ws).advances 2 = ((s.reading a rs ws).didRead (.err e) ds).endTransport e) ∨
    (∃ sp ds, s.transport.reads = .bytes sp :: ds ∧ (s.reading a rs ws).advances 2 =
      (((s.reading a rs ws).didRead (.bytes sp) ds).loadRecord sp).endDecode (decodeRecord sp)) :=
  have hphase : (s.reading a rs ws).phase = .readSp := rfl
  readSp_advances_cases hphase

theorem waiting_reading : Waiting s (s.reading a rs ws)
    [.reset .present, .write (buildFrame (targetOf a) readScratchpadByte) .ok] .readSp :=
  ⟨rfl, rfl, rfl, s.reading_trace a rs ws⟩

theorem reading_didRead_trace (r : ReadAnswer E) (ds : List (ReadAnswer E)) :
    ((s.reading a rs ws).didRead r ds).trace =
      s.trace ++ [.reset .present, .write (buildFrame (targetOf a) readScratchpadByte) .ok, .read 9 r] := by
  simp

end

theorem ended_finishRead {s u : State E} {evs : List (Event E)} (q : Count) (ht : u.trace = s.trace ++ evs)
    (hx : u.xerr = s.xerr) : Ended s (u.finishRead q) evs .ok s.xerr :=
  ⟨rfl, rfl, hx, by rw [State.finishRead_trace, ht]⟩

/-! ### READ_TEMP (R153) -/

theorem exec_readTemp_of_idle {s : State} (h : s.phase = .idle) (a : ReqArgs) :
    exec (.readTemp a) s = .next ((s.latch (reqWord 2 a)).start (a.busValid && a.outValid)) :=
  congrArg Host.Outcome.next (State.take_of_idle h (reqWord 2 a) (State.start (a.busValid && a.outValid)))

/-- READ_TEMP writes REQ, whatever is answered, and neither PAYLOAD nor the request port. -/
theorem readTemp_keeps (a : ReqArgs) (valid : Bool) (s : State E) :
    ((s.latch (reqWord 2 a)).start valid).req = reqWord 2 a ∧
      ((s.latch (reqWord 2 a)).start valid).payload = s.payload ∧
      ((s.latch (reqWord 2 a)).start valid).requests = s.requests := by
  cases valid
  case false => exact ⟨rfl, rfl, rfl⟩
  case true =>
    rw [State.start_true_latch]
    rcases began_proceed_cases (rfl : commandOf 2 = some readScratchpadByte) a s with
      ⟨_, ht⟩ | ⟨_, _, ht⟩ | ⟨_, _, _, ht⟩ | ⟨_, _, _, ht⟩ | ⟨_, _, _, _, _, ht⟩ | ⟨rs, ws, _, _, ht⟩ <;> rw [ht]
    case' inr.inr.inr.inr.inr =>
      rw [readTemp_afterFrame_advances]
      rcases reading_advances_cases a rs ws s with ⟨_, hu⟩ | ⟨_, _, _, hu⟩ | ⟨sp, _, _, hu⟩ <;> rw [hu]
      case' inr.inr => cases decodeRecord sp
    all_goals exact ⟨rfl, rfl, rfl⟩

/-- Settles O21: without handle or target READ_TEMP ends at once; else it does what `began_proceed_cases` says, and from
its written frame what `reading_advances_cases` says. -/
theorem readTempRuns : Obligations.ReadTempRuns := by
  intro a s h
  obtain ⟨hreq, hpayload, hrequests⟩ := readTemp_keeps a (a.busValid && a.outValid) s
  refine ⟨_, exec_readTemp_of_idle h a, hreq, hpayload, hrequests, fun hv => ?invalid, fun hb ho => ?valid⟩
  case invalid =>
    have hvalid : (a.busValid && a.outValid) = false := by simpa [or_iff_not_imp_left] using hv
    rw [hvalid]
    exact ⟨ended_endWith _ (List.append_nil s.trace).symm rfl, rfl, rfl, rfl⟩
  case valid =>
    rw [hb, ho, Bool.and_self, State.start_true_latch]
    rcases began_proceed_cases (rfl : commandOf 2 = some readScratchpadByte) a s with
      ⟨hr, ht⟩ | ⟨rs, hr, ht⟩ | ⟨e, rs, hr, ht⟩ | ⟨rs, hr, hw, ht⟩ | ⟨rs, e, ws, hr, hw, ht⟩ | ⟨rs, ws, hr, hw, ht⟩
    · rw [ht, hr]
      exact ⟨waiting_began 2 a s, rfl⟩
    · rw [ht, hr]
      exact ⟨ended_endWith _ rfl rfl, rfl⟩
    · rw [ht, hr]
      exact ⟨ended_endTransport e rfl, rfl⟩
    · rw [ht, hr, hw]
      exact ⟨waiting_framed 2 a _ rs s, s.framed_frame 2 a _ rs, s.framed_frameLen 2 a _ rs, rfl⟩
    · rw [ht, hr, hw]
      exact ⟨ended_endTransport e (s.wroteFrame_trace 2 a _ rs _ ws), rfl⟩
    · rw [ht, readTemp_afterFrame_advances, hr, hw]
      rcases reading_advances_cases a rs ws s with ⟨hd, hu⟩ | ⟨e, ds, hd, hu⟩ | ⟨sp, ds, hd, hu⟩ <;> rw [hu, hd]
      · exact ⟨waiting_reading a rs ws s, rfl⟩
      · exact ⟨ended_endTransport e (reading_didRead_trace a rs ws s _ ds), rfl⟩
      · have htrace := reading_didRead_trace a rs ws s (.bytes sp) ds
        dsimp only
        cases decodeRecord sp with
        | temp q => exact ⟨ended_finishRead q htrace rfl, rfl⟩
        | badCrc | badCfg => exact ⟨ended_endWith _ htrace rfl, rfl⟩

end Sys2Proof.Machine
end

section
/-! Who writes TEMP_Q4 (R29, R154): of the steps out of a phase only the one out of DECODE, and then it is the success of a
READ_TEMP; so of the steps of the machine, block reset apart, only those that end a READ_TEMP with OK. -/

namespace Sys2Proof.Machine

variable {E : Type}

/-! ### One step out of a phase -/

@[simp] theorem State.stepReset_tempQ4 (s : State E) : s.stepReset.tempQ4 = s.tempQ4 := by
  rcases stepReset_cases s with ⟨_, h⟩ | ⟨_, _, h⟩ | ⟨_, _, _, h⟩ | ⟨_, _, _, h⟩ | ⟨_, _, _, _, h⟩ <;> simp [h]

@[simp] theorem State.afterFrame_tempQ4 (s : State E) : s.afterFrame.tempQ4 = s.tempQ4 := by
  rcases afterFrame_cases s with ⟨_, h⟩ | ⟨_, h⟩ | ⟨_, h⟩ | ⟨_, h⟩ <;> simp [h]

@[simp] theorem State.stepSendFrame_tempQ4 (s : State E) : s.stepSendFrame.tempQ4 = s.tempQ4 := by
  rcases stepSendFrame_cases s with ⟨_, h⟩ | ⟨_, _, h⟩ | ⟨_, _, _, h⟩ <;> simp [h]

@[simp] theorem State.stepSendPayload_tempQ4 (s : State E) : s.stepSendPayload.tempQ4 = s.tempQ4 := by
  rcases stepSendPayload_cases s with ⟨_, h⟩ | ⟨_, _, h⟩ | ⟨_, _, _, h⟩ <;> simp [h]

@[simp] theorem State.stepReadSp_tempQ4 (s : State E) : s.stepReadSp.tempQ4 = s.tempQ4 := by
  rcases stepReadSp_cases s with ⟨_, h⟩ | ⟨_, _, _, h⟩ | ⟨_, _, _, h⟩ <;> simp [h]

/-- A step out of a phase leaves TEMP_Q4, or it is DECODE's success (R153). -/
theorem advance_tempQ4_cases (s : State E) :
    s.advance.tempQ4 = s.tempQ4 ∨ (s.phase = .decode ∧ ∃ q, s.advance = s.finishRead q) := by
  rcases phase_cases s.phase with h | h | h | h | h | h
  · exact .inl (by rw [advance_idle h])
  · rw [advance_decode h, State.stepDecode]
    rcases endDecode_cases (decodeRecord s.sp) s with ⟨q, _, hd⟩ | ⟨_, hd⟩ | ⟨_, hd⟩
    · exact .inr ⟨h, q, hd⟩
    · exact .inl (by rw [hd, State.endWith_tempQ4])
    · exact .inl (by rw [hd, State.endWith_tempQ4])
  · exact .inl (by rw [advance_reset h, State.stepReset_tempQ4])
  · exact .inl (by rw [advance_sendFrame h, State.stepSendFrame_tempQ4])
  · exact .inl (by rw [advance_sendPayload h, State.stepSendPayload_tempQ4])
  · exact .inl (by rw [advance_readSp h, State.stepReadSp_tempQ4])

/-! ### Only READ_TEMP reads and decodes (R21) -/

/-- The clause `reading` of the invariant: in READ_SP and DECODE the operation in REQ is a READ_TEMP. -/
def State.ReadsOnlyInReadTemp (s : State E) : Prop := s.phase = .readSp ∨ s.phase = .decode → reqOp s.req = 2

theorem readsOnlyInReadTemp_of_phase {s : State E} (hr : s.phase ≠ .readSp) (hd : s.phase ≠ .decode) :
    s.ReadsOnlyInReadTemp := fun h => absurd h (not_or.mpr ⟨hr, hd⟩)

theorem stepReset_readsOnlyInReadTemp {s : State E} (h : s.phase = .reset) : s.stepReset.ReadsOnlyInReadTemp := by
  rcases stepReset_cases s with ⟨_, ht⟩ | ⟨_, _, ht⟩ | ⟨_, _, _, ht⟩ | ⟨_, _, _, ht⟩ | ⟨_, _, _, _, ht⟩ <;>
    exact readsOnlyInReadTemp_of_phase (by simp [ht, h]) (by simp [ht, h])

theorem afterFrame_readsOnlyInReadTemp (s : State E) : s.afterFrame.ReadsOnlyInReadTemp := by
  rcases afterFrame_cases s with ⟨_, ht⟩ | ⟨hop, ht⟩ | ⟨_, ht⟩ | ⟨_, ht⟩ <;> rw [ht]
  case inr.inl => exact fun _ => hop
  all_goals exact readsOnlyInReadTemp_of_phase (by simp) (by simp)

theorem stepSendFrame_readsOnlyInReadTemp {s : State E} (h : s.phase = .sendFrame) :
    s.stepSendFrame.ReadsOnlyInReadTemp := by
  rcases stepSendFrame_cases s with ⟨_, ht⟩ | ⟨_, _, ht⟩ | ⟨_, _, _, ht⟩
  · exact readsOnlyInReadTemp_of_phase (by simp [ht, h]) (by simp [ht, h])
  · exact ht ▸ afterFrame_readsOnlyInReadTemp _
  · exact readsOnlyInReadTemp_of_phase (by simp [ht]) (by simp [ht])

theorem stepSendPayload_readsOnlyInReadTemp {s : State E} (h : s.phase = .sendPayload) :
    s.stepSendPayload.ReadsOnlyInReadTemp := by
  rcases stepSendPayload_cases s with ⟨_, ht⟩ | ⟨_, _, ht⟩ | ⟨_, _, _, ht⟩ <;>
    exact readsOnlyInReadTemp_of_phase (by simp [ht, h]) (by simp [ht, h])

theorem advance_readsOnlyInReadTemp {s : State E} (h : s.ReadsOnlyInReadTemp) : s.advance.ReadsOnlyInReadTemp := by
  rcases phase_cases s.phase with hp | hp | hp | hp | hp | hp
  · rwa [advance_idle hp]
  · exact fun _ => s.advance_req ▸ h (.inr hp)
  · exact advance_reset hp ▸ stepReset_readsOnlyInReadTemp hp
  · exact advance_sendFrame hp ▸ stepSendFrame_readsOnlyInReadTemp hp
  · exact advance_sendPayload hp ▸ stepSendPayload_readsOnlyInReadTemp hp
  · exact fun _ => s.advance_req ▸ h (.inl hp)

/-! ### TEMP_Q4 from one state to a later one -/

/-- The machine stands where an operation has just ended with OK (R210). -/
def State.EndedOk (t : State E) : Prop := t.status = .ok ∧ t.phase = .idle ∧ t.trace.getLast? = some (.done .ok)

/-- From `s` to `t` TEMP_Q4 was kept, or an operation has just ended with OK; if only READ_TEMP reads in `s`, that is so in
`t` too, and the operation is a READ_TEMP (R154). -/
def TempKeptOrRead (s t : State E) : Prop :=
  (t.tempQ4 = s.tempQ4 ∧ (s.ReadsOnlyInReadTemp → t.ReadsOnlyInReadTemp)) ∨
  (t.EndedOk ∧ (s.ReadsOnlyInReadTemp → reqOp t.req = 2))

theorem finishRead_endedOk (q : Count) (s : State E) : (s.finishRead q).EndedOk :=
  ⟨rfl, rfl, by rw [State.finishRead_trace, List.getLast?_concat]⟩

theorem TempKeptOrRead.refl (s : State E) : TempKeptOrRead s s := .inl ⟨rfl, id⟩

theorem TempKeptOrRead.advance {s t : State E} (h : TempKeptOrRead s t) : TempKeptOrRead s t.advance := by
  rcases h with ⟨htemp, hreads⟩ | ⟨⟨hok, hidle, hlast⟩, hop⟩
  · rcases advance_tempQ4_cases t with hkept | ⟨hp, q, hq⟩
    · exact .inl ⟨hkept.trans htemp, fun hs => advance_readsOnlyInReadTemp (hreads hs)⟩
    · exact .inr ⟨hq ▸ finishRead_endedOk q t, fun hs => t.advance_req ▸ hreads hs (.inr hp)⟩
  · rw [advance_idle hidle]
    exact .inr ⟨⟨hok, hidle, hlast⟩, hop⟩

theorem TempKeptOrRead.proceed {s t : State E} (h : TempKeptOrRead s t) : TempKeptOrRead s t.proceed :=
  proceed_induction (P := TempKeptOrRead s) (fun _ => .advance) h

theorem tempKeptOrRead_endWith {s u : State E} (h : u.tempQ4 = s.tempQ4) (st : Status) :
    TempKeptOrRead s (u.endWith st) :=
  .inl ⟨h, fun _ => readsOnlyInReadTemp_of_phase (by simp) (by simp)⟩

theorem tempKeptOrRead_enter_reset_proceed {s u : State E} (h : u.tempQ4 = s.tempQ4) :
    TempKeptOrRead s (u.enter .reset).proceed :=
  have entered : TempKeptOrRead s (u.enter .reset) :=
    .inl ⟨h, fun _ => readsOnlyInReadTemp_of_phase (by simp) (by simp)⟩
  entered.proceed

theorem tempKeptOrRead_start {s u : State E} (h : u.tempQ4 = s.tempQ4) (valid : Bool) :
    TempKeptOrRead s (u.start valid) := by
  cases valid
  · exact tempKeptOrRead_endWith h .invalidArgument
  · exact tempKeptOrRead_enter_reset_proceed h

/-! ### A step of the machine -/

theorem step_tempKeptOrRead {s t : State} (hr : s.resetLine = false) (h : step s = .next t) : TempKeptOrRead s t := by
  rcases step_cases h with ⟨hreset, ht⟩ | ⟨_, _, _, _, ht⟩ | ⟨_, _, _, _, ht⟩ | ⟨_, _, _, w, ws, _, ht⟩ |
    ⟨_, _, hp, ht⟩ | ⟨_, _, _, _, ht⟩ <;> rw [ht]
  · exact absurd hreset (Bool.eq_false_iff.mp hr)
  · exact .inl ⟨rfl, id⟩
  · exact .refl s
  · have hkept : ((s.withRequests ws).latch w).tempQ4 = s.tempQ4 := rfl
    rcases requestBody_cases w ((s.withRequests ws).latch w) with ⟨_, hb⟩ | ⟨_, _, hb⟩ | ⟨_, hb⟩ <;> rw [hb]
    · exact tempKeptOrRead_enter_reset_proceed hkept
    · exact tempKeptOrRead_endWith hkept _
    · exact tempKeptOrRead_endWith hkept _
  · exact advance_decode hp ▸ (TempKeptOrRead.refl s).advance
  · exact (TempKeptOrRead.refl s).proceed

/-- Settles O33: where TEMP_Q4 was not kept an operation has just ended with OK, which by the invariant's clause `reading`
is a READ_TEMP. -/
theorem temperatureOnlyOnSuccess : Obligations.TemperatureOnlyOnSuccess := by
  refine ⟨fun a s t hi he _ hnotOk => ?failed, fun s t hr h hne => ?written, State.reset_tempQ4⟩
  case failed =>
    obtain rfl := Host.Outcome.next.inj ((exec_readTemp_of_idle hi a).symm.trans he)
    rcases tempKeptOrRead_start (s.latch_tempQ4 (reqWord 2 a)) (a.busValid && a.outValid) with ⟨hkept, _⟩ | ⟨⟨hok, _⟩, _⟩
    · exact hkept
    · exact absurd hok hnotOk
  case written =>
    rcases step_tempKeptOrRead hr h with ⟨hkept, _⟩ | ⟨⟨hok, hidle, hlast⟩, hop⟩
    · exact absurd hkept hne
    · exact ⟨hok, hidle, hlast, fun inv => hop inv.reading⟩

end Sys2Proof.Machine
end

section
/-! SET_RES (R185) after its written frame: the write of its payload, and what each of its answers ends or waits with. -/

namespace Sys2Proof.Machine

variable {E : Type}

/-! ### From SEND_PAYLOAD to the end -/

theorem afterFrame_of_op_three {s : State E} (h : reqOp s.req = 3) : s.afterFrame = s.loadPayload := by
  rcases afterFrame_cases s with ⟨h₁, _⟩ | ⟨h₂, _⟩ | ⟨_, hs⟩ | ⟨⟨_, _, h₃⟩, _⟩
  · exact absurd (h ▸ h₁) (by decide)
  · exact absurd (h ▸ h₂) (by decide)
  · exact hs
  · exact absurd h h₃

/-- Out of SEND_PAYLOAD one step is all: the payload write waits, or its answer ends the operation. -/
theorem advances_of_sendPayload {s : State E} (h : s.phase = .sendPayload) (n : Nat) :
    s.advances (n + 1) = s.stepSendPayload := by
  have hsend := advance_sendPayload h
  rw [State.advances, hsend]
  rcases stepSendPayload_cases s with ⟨_, hs⟩ | ⟨_, _, hs⟩ | ⟨_, _, _, hs⟩ <;> rw [hs]
  · exact advances_of_advance_eq (hsend.trans hs) n
  · exact advances_of_idle (State.endWith_phase _ _) n
  · exact advances_of_idle (State.endTransport_phase _ _) n

/-- SET_RES, presented in `s`, has written its frame, with `rs` and `ws` still to come: its payload comes next (R185). -/
def State.configuring (a : ReqArgs) (rs : List (ResetAnswer E)) (ws : List (WriteAnswer E)) (s : State E) : State E :=
  ((s.wroteFrame 3 a writeScratchpadByte rs .ok ws).sendAll
    (buildFrame (targetOf a) writeScratchpadByte)).loadPayload

section
variable (a : ReqArgs) (rs : List (ResetAnswer E)) (ws : List (WriteAnswer E)) (s : State E)

/-- SET_RES goes on from its written frame to the payload. -/
theorem setRes_afterFrame_advances :
    (((s.wroteFrame 3 a writeScratchpadByte rs .ok ws).sendAll
      (buildFrame (targetOf a) writeScratchpadByte)).afterFrame).advances 2 =
      (s.configuring a rs ws).stepSendPayload := by
  rw [afterFrame_of_op_three (reqOp_reqWord 3 a)]
  exact advances_of_sendPayload (State.loadPayload_phase _) 1

@[simp] theorem State.configuring_trace : (s.configuring a rs ws).trace =
    s.trace ++ [.reset .present, .write (buildFrame (targetOf a) writeScratchpadByte) .ok] :=
  s.wroteFrame_trace 3 a writeScratchpadByte rs .ok ws

@[simp] theorem State.configuring_payload : (s.configuring a rs ws).payload = packPayload a.res := by
  calc (s.configuring a rs ws).payload = packPayload (reqArgs (reqWord 3 a)).res := rfl
    _ = packPayload a.res := by rw [reqArgs_reqWord]

/-- Everything SET_RES can do once its frame is written, by the answer to its second write. -/
theorem configuring_stepSendPayload_cases :
    (ws = [] ∧ (s.configuring a rs ws).stepSendPayload = s.configuring a rs ws) ∨
    (∃ e vs, ws = .err e :: vs ∧ (s.configuring a rs ws).stepSendPayload =
      (((s.configuring a rs ws).didWrite (packPayload a.res).bytes (.err e) vs).losePayload).endTransport e) ∨
    (∃ vs, ws = .ok :: vs ∧ (s.configuring a rs ws).stepSendPayload =
      (((s.configuring a rs ws).didWrite (packPayload a.res).bytes .ok vs).sendAll
        (packPayload a.res).bytes).endWith .ok) := by
  rw [← s.configuring_payload a rs ws]
  rcases stepSendPayload_cases (s.configuring a rs ws) with ⟨hw, hs⟩ | ⟨vs, hw, hs⟩ | ⟨e, vs, hw, hs⟩
  · exact .inl ⟨hw, hs⟩
  · exact .inr (.inr ⟨vs, hw, hs⟩)
  · exact .inr (.inl ⟨e, vs, hw, hs⟩)

theorem waiting_configuring : Waiting s (s.configuring a rs ws)
    [.reset .present, .write (buildFrame (targetOf a) writeScratchpadByte) .ok] .sendPayload :=
  ⟨rfl, rfl, rfl, s.configuring_trace a rs ws⟩

/-- The frame and the payload are two writes, in that order (R64). -/
theorem configuring_didWrite_trace (l : List Byte) (w : WriteAnswer E) (vs : List (WriteAnswer E)) :
    ((s.configuring a rs ws).didWrite l w vs).trace =
      s.trace ++ [.reset .present, .write (buildFrame (targetOf a) writeScratchpadByte) .ok, .write l w] := by
  simp

end

/-! ### SET_RES (R185) -/

theorem exec_setRes_of_idle {s : State} (h : s.phase = .idle) (a : ReqArgs) :
    exec (.setRes a) s = .next ((s.latch (reqWord 3 a)).start a.busValid) :=
  congrArg Host.Outcome.next (State.take_of_idle h (reqWord 3 a) (State.start a.busValid))

/-- SET_RES writes REQ, whatever is answered, and neither TEMP_Q4 nor SP nor the request port. -/
theorem setRes_keeps (a : ReqArgs) (valid : Bool) (s : State E) :
    ((s.latch (reqWord 3 a)).start valid).req = reqWord 3 a ∧
      ((s.latch (reqWord 3 a)).start valid).tempQ4 = s.tempQ4 ∧
      ((s.latch (reqWord 3 a)).start valid).sp = s.sp ∧
      ((s.latch (reqWord 3 a)).start valid).requests = s.requests := by
  cases valid
  case false => exact ⟨rfl, rfl, rfl, rfl⟩
  case true =>
    rw [State.start_true_latch]
    rcases began_proceed_cases (rfl : commandOf 3 = some writeScratchpadByte) a s with
      ⟨_, ht⟩ | ⟨_, _, ht⟩ | ⟨_, _, _, ht⟩ | ⟨_, _, _, ht⟩ | ⟨_, _, _, _, _, ht⟩ | ⟨rs, ws, _, _, ht⟩ <;> rw [ht]
    case' inr.inr.inr.inr.inr =>
      rw [setRes_afterFrame_advances]
      rcases configuring_stepSendPayload_cases a rs ws s with ⟨_, hu⟩ | ⟨_, _, _, hu⟩ | ⟨_, _, hu⟩ <;> rw [hu]
    all_goals exact ⟨rfl, rfl, rfl, rfl⟩

/-- Settles O22: without a handle SET_RES ends at once; with one it does what `began_proceed_cases` says, and from its
written frame what `configuring_stepSendPayload_cases` says. -/
theorem setResRuns : Obligations.SetResRuns := by
  intro a s h
  obtain ⟨hreq, htemp, hsp, hrequests⟩ := setRes_keeps a a.busValid s
  refine ⟨_, exec_setRes_of_idle h a, hreq, htemp, hsp, hrequests, fun hv => ?invalid, fun hv => ?valid⟩
  case invalid =>
    rw [hv]
    exact ⟨ended_endWith _ (List.append_nil s.trace).symm rfl, rfl, rfl⟩
  case valid =>
    rw [hv, State.start_true_latch]
    rcases began_proceed_cases (rfl : commandOf 3 = some writeScratchpadByte) a s with
      ⟨hr, ht⟩ | ⟨rs, hr, ht⟩ | ⟨e, rs, hr, ht⟩ | ⟨rs, hr, hw, ht⟩ | ⟨rs, e, ws, hr, hw, ht⟩ | ⟨rs, ws, hr, hw, ht⟩
    · rw [ht, hr]
      exact waiting_began 3 a s
    · rw [ht, hr]
      exact ended_endWith _ rfl rfl
    · rw [ht, hr]
      exact ended_endTransport e rfl
    · rw [ht, hr, hw]
      exact ⟨waiting_framed 3 a _ rs s, s.framed_frame 3 a _ rs, s.framed_frameLen 3 a _ rs⟩
    · rw [ht, hr, hw]
      exact ended_endTransport e (s.wroteFrame_trace 3 a _ rs _ ws)
    · rw [ht, setRes_afterFrame_advances, hr, hw]
      rcases configuring_stepSendPayload_cases a rs ws s with ⟨rfl, hu⟩ | ⟨e, vs, rfl, hu⟩ | ⟨vs, rfl, hu⟩ <;> rw [hu]
      · exact ⟨waiting_configuring a rs [] s, s.configuring_payload a rs []⟩
      · exact ended_endTransport e (configuring_didWrite_trace a rs _ s _ _ vs)
      · exact ended_endWith _ (configuring_didWrite_trace a rs _ s _ _ vs) rfl

end Sys2Proof.Machine
end

section
/-! The end of an operation (R210), and the one status it reports (R208): what `reported` is for each first failing check,
with which status each way to end leaves IDLE, and the statements these settle. -/

namespace Sys2Proof.Machine

variable {E : Type}

/-- Settles O19: each end is its record update, and with PHASE IDLE the block is not busy. -/
theorem endOfAnOperation : Obligations.EndOfAnOperation := fun s st e =>
  have notBusy : (s.endWith st).busy = false := (State.busy_eq_false_iff _).mpr (s.endWith_phase st)
  have notBusyErr : (s.endTransport e).busy = false := (State.busy_eq_false_iff _).mpr (s.endTransport_phase e)
  ⟨rfl, rfl, fun _ => rfl, notBusy, notBusyErr⟩

/-! ### The first failing check (R208), check by check -/

/-- The status of the first check of a list that fails, else OK. -/
def firstFailing (checks : List (Bool × Status)) : Status := (checks.find? (·.1)).elim .ok (·.2)

@[simp] theorem firstFailing_nil : firstFailing [] = .ok := rfl

@[simp] theorem firstFailing_cons (fails : Bool) (st : Status) (checks : List (Bool × Status)) :
    firstFailing ((fails, st) :: checks) = if fails = true then st else firstFailing checks := by
  cases fails <;> rfl

theorem reported_eq_firstFailing (w : ReqWord) (x : Transport E) : reported w x = firstFailing (checksOf w x) := by
  unfold reported firstFailing
  cases (checksOf w x).find? (·.1) <;> rfl

theorem reported_of_reserved {w : ReqWord} (h : reqOp w ≠ 1 ∧ reqOp w ≠ 2 ∧ reqOp w ≠ 3) (x : Transport E) :
    reported w x = .illegalOp := by
  rw [reported_eq_firstFailing, checksOf, firstFailing_cons, if_pos (decide_eq_true h)]

/-- Check 1 passes for the three operations (R82). -/
theorem reported_of_op {w : ReqWord} (hop : reqOp w = 1 ∨ reqOp w = 2 ∨ reqOp w = 3) (x : Transport E) :
    reported w x = firstFailing ((checksOf w x).drop 1) := by
  have passes : ¬(reqOp w ≠ 1 ∧ reqOp w ≠ 2 ∧ reqOp w ≠ 3) := by tauto
  rw [reported_eq_firstFailing, checksOf, firstFailing_cons, if_neg (mt of_decide_eq_true passes)]
  rfl

theorem reported_of_invalid {w : ReqWord} (hop : reqOp w = 1 ∨ reqOp w = 2 ∨ reqOp w = 3)
    (h : (reqArgs w).busValid = false ∨ (reqOp w = 2 ∧ (reqArgs w).outValid = false)) (x : Transport E) :
    reported w x = .invalidArgument := by
  rw [reported_of_op hop, checksOf, List.drop_one, List.tail_cons, firstFailing_cons, if_pos (decide_eq_true h)]

section
variable {w : ReqWord} (hw : Startable w) {x : Transport E} {rs : List (ResetAnswer E)} {ws : List (WriteAnswer E)}
include hw

/-- Checks 1 and 2 pass for what may start, whatever the transport answers. -/
theorem reported_of_startable : reported w x = firstFailing ((checksOf w x).drop 2) := by
  obtain ⟨hop, hbus, hout⟩ := hw
  have passes : ¬((reqArgs w).busValid = false ∨ (reqOp w = 2 ∧ (reqArgs w).outValid = false)) := by
    simpa [hbus] using hout
  rw [reported_of_op hop, checksOf, List.drop_one, List.tail_cons, firstFailing_cons,
    if_neg (mt of_decide_eq_true passes)]
  rfl

theorem reported_of_absent (hr : x.resets = .absent :: rs) : reported w x = .notFound := by
  simp [reported_of_startable hw, checksOf, hr]

theorem reported_of_reset_err {e : E} (hr : x.resets = .err e :: rs) : reported w x = .transport := by
  simp [reported_of_startable hw, checksOf, hr]

theorem reported_of_frame_err {e : E} (hr : x.resets = .present :: rs) (hf : x.writes = .err e :: ws) :
    reported w x = .transport := by
  simp [reported_of_startable hw, checksOf, hr, hf]

theorem reported_of_trigger (hop : reqOp w = 1) (hr : x.resets = .present :: rs) (hf : x.writes = .ok :: ws) :
    reported w x = .ok := by
  simp [reported_of_startable hw, checksOf, hr, hf, hop]

theorem reported_of_payload_err {e : E} (hop : reqOp w = 3) (hr : x.resets = .present :: rs)
    (hf : x.writes = .ok :: .err e :: ws) : reported w x = .transport := by
  simp [reported_of_startable hw, checksOf, hr, hf, hop]

theorem reported_of_payload_ok (hop : reqOp w = 3) (hr : x.resets = .present :: rs)
    (hf : x.writes = .ok :: .ok :: ws) : reported w x = .ok := by
  simp [reported_of_startable hw, checksOf, hr, hf, hop]

theorem reported_of_read_err {e : E} {ds : List (ReadAnswer E)} (hop : reqOp w = 2) (hr : x.resets = .present :: rs)
    (hf : x.writes = .ok :: ws) (hd : x.reads = .err e :: ds) : reported w x = .transport := by
  simp [reported_of_startable hw, checksOf, hr, hf, hop, hd]

/-- With its record read, READ_TEMP has the CRC and then the configuration left to check. -/
theorem reported_of_record {sp : Scratchpad} {ds : List (ReadAnswer E)} (hop : reqOp w = 2)
    (hr : x.resets = .present :: rs) (hf : x.writes = .ok :: ws) (hd : x.reads = .bytes sp :: ds) :
    reported w x = if crcOk sp = false then .invalidCrc
      else if sp.configuration.getLsbD 7 = true then .configRange else .ok := by
  simp [reported_of_startable hw, checksOf, hr, hf, hop, hd]

end

/-! ### With which status an operation stands in IDLE -/

/-- The operation has ended, and reports `st` (R208). -/
def State.EndedWith (t : State E) (st : Status) : Prop := t.phase = .idle ∧ t.status = st

theorem endWith_endedWith (s : State E) (st : Status) : (s.endWith st).EndedWith st :=
  ⟨s.endWith_phase st, s.endWith_status st⟩

theorem endTransport_endedWith (s : State E) (e : E) : (s.endTransport e).EndedWith .transport :=
  ⟨s.endTransport_phase e, s.endTransport_status e⟩

/-- An index has no mask exactly when bit 7 is set (R145). -/
theorem lsbMask_cfgIndex_eq_none_iff (b : Byte) : lsbMask (cfgIndex b) = none ↔ b.getLsbD 7 = true := by
  rw [lsbMask_eq_none_iff, three_lt_cfgIndex_iff, three_lt_shift_iff_bit_seven]

/-- DECODE ends the read with the status of the first of its two checks that fails (R155). -/
theorem endDecode_decodeRecord_endedWith (s : State E) (sp : Scratchpad) :
    (s.endDecode (decodeRecord sp)).EndedWith
      (if crcOk sp = false then .invalidCrc else if sp.configuration.getLsbD 7 = true then .configRange else .ok) := by
  cases hcrc : crcOk sp
  case false =>
    rw [decodeRecord_of_crc_ne (mt (crcOk_iff sp).mpr (Bool.eq_false_iff.mp hcrc))]
    exact endWith_endedWith s .invalidCrc
  case true =>
    have hmatch := (crcOk_iff sp).mp hcrc
    cases hcfg : sp.configuration.getLsbD 7
    case true =>
      rw [decodeRecord_of_no_mask hmatch ((lsbMask_cfgIndex_eq_none_iff _).mpr hcfg)]
      exact endWith_endedWith s .configRange
    case false =>
      have hmask := mt (lsbMask_cfgIndex_eq_none_iff _).mp (Bool.eq_false_iff.mp hcfg)
      obtain ⟨mask, hm⟩ := Option.ne_none_iff_exists'.mp hmask
      rw [decodeRecord_of_mask hmatch hm]
      exact ⟨s.finishRead_phase _, s.finishRead_status _⟩

/-! ### A started operation reports its first failing check -/

theorem commandOf_of_op {op : BitVec 3} (h : op = 1 ∨ op = 2 ∨ op = 3) : ∃ cmd, commandOf op = some cmd := by
  rcases h with rfl | rfl | rfl <;> exact ⟨_, rfl⟩

section
variable {op : BitVec 3} {a : ReqArgs} {cmd : Byte} (hw : Startable (reqWord op a)) (hc : commandOf op = some cmd)
  {s : State E} (hready : s.transport.Ready) {rs : List (ResetAnswer E)} {ws : List (WriteAnswer E)}

include hw hc hready in
/-- After its written frame TRIGGER ends, READ_TEMP ends with its read and SET_RES with its payload write. -/
theorem afterFrame_reports (hr : s.transport.resets = .present :: rs) (hf : s.transport.writes = .ok :: ws) :
    ((((s.wroteFrame op a cmd rs .ok ws).sendAll (buildFrame (targetOf a) cmd)).afterFrame).advances 2).EndedWith
      (reported (reqWord op a) s.transport) := by
  have ⟨_, htwo, hreads⟩ := hready
  have hop := reqOp_reqWord op a ▸ hw.1
  rcases hop with rfl | rfl | rfl
  · rw [trigger_afterFrame_advances, reported_of_trigger hw (reqOp_reqWord 1 a) hr hf]
    exact endWith_endedWith _ .ok
  · obtain rfl : readScratchpadByte = cmd := Option.some.inj hc
    rw [readTemp_afterFrame_advances]
    rcases reading_advances_cases a rs ws s with ⟨hd, _⟩ | ⟨e, ds, hd, hu⟩ | ⟨sp, ds, hd, hu⟩
    · exact absurd hd hreads
    · rw [hu, reported_of_read_err hw (reqOp_reqWord 2 a) hr hf hd]
      exact endTransport_endedWith _ e
    · rw [hu, reported_of_record hw (reqOp_reqWord 2 a) hr hf hd]
      exact endDecode_decodeRecord_endedWith _ sp
  · obtain rfl : writeScratchpadByte = cmd := Option.some.inj hc
    rw [setRes_afterFrame_advances]
    rcases configuring_stepSendPayload_cases a rs ws s with ⟨rfl, _⟩ | ⟨e, vs, rfl, hu⟩ | ⟨vs, rfl, hu⟩
    · exact absurd htwo (by simp [hf])
    · rw [hu, reported_of_payload_err hw (reqOp_reqWord 3 a) hr hf]
      exact endTransport_endedWith _ e
    · rw [hu, reported_of_payload_ok hw (reqOp_reqWord 3 a) hr hf]
      exact endWith_endedWith _ .ok

include hw hready in
/-- With every answer there, an operation that has started ends, and reports the first check that fails. -/
theorem began_proceed_reports : ((s.began op a).proceed).EndedWith (reported (reqWord op a) s.transport) := by
  have ⟨hresets, htwo, _⟩ := hready
  obtain ⟨cmd, hc⟩ := commandOf_of_op (reqOp_reqWord op a ▸ hw.1)
  rcases began_proceed_cases hc a s with
    ⟨hr, _⟩ | ⟨rs, hr, ht⟩ | ⟨e, rs, hr, ht⟩ | ⟨rs, hr, hf, _⟩ | ⟨rs, e, ws, hr, hf, ht⟩ | ⟨rs, ws, hr, hf, ht⟩
  · exact absurd hr hresets
  · rw [ht, reported_of_absent hw hr]
    exact endWith_endedWith _ .notFound
  · rw [ht, reported_of_reset_err hw hr]
    exact endTransport_endedWith _ e
  · exact absurd htwo (by simp [hf])
  · rw [ht, reported_of_frame_err hw hr hf]
    exact endTransport_endedWith _ e
  · rw [ht]
    exact afterFrame_reports hw hc hready hr hf

end

/-- What follows the latching of a word reports the first check that fails (R98, R208). -/
theorem requestBody_reports (w : ReqWord) {s : State E} (hready : s.transport.Ready) :
    (requestBody w (s.latch w)).EndedWith (reported w s.transport) := by
  rcases requestBody_cases w (s.latch w) with ⟨hw, ht⟩ | ⟨hop, hinvalid, ht⟩ | ⟨hreserved, ht⟩ <;> rw [ht]
  · rw [← reqWord_fields w] at hw ⊢
    exact began_proceed_reports hw hready
  · rw [reported_of_invalid hop hinvalid]
    exact endWith_endedWith _ .invalidArgument
  · rw [reported_of_reserved hreserved]
    exact endWith_endedWith _ .illegalOp

/-- Settles O27: in IDLE executing a request is its body on the latched word, which reports the first failing check. -/
theorem firstFailingCheckIsReported : Obligations.FirstFailingCheckIsReported := fun w _ hidle hready =>
  ⟨_, exec_decodeRequest_of_idle hidle w, requestBody_reports w hready⟩

end Sys2Proof.Machine
end

section
/-! The invariant (`State.Inv`): it holds in IDLE where the outputs and the device side are in order, each step out of a
phase keeps it, and so does every step of the machine. -/

namespace Sys2Proof.Machine

variable {E : Type}

/-! ### The device side (R15, R86) -/

/-- The clauses `devices` and `address` of the invariant: what it says of the device side. -/
def BusSide.Sound (u : BusSide) : Prop := (u.devices.map Device.addr).Nodup ∧ u.AddressBound

theorem State.Inv.sound {s : State E} (h : s.Inv) : s.bus.Sound := ⟨h.devices, h.address⟩

theorem BusSide.Sound.takeByte {u : BusSide} (h : u.Sound) (b : Byte) : (u.takeByte b).Sound :=
  ⟨(u.takeByte_addr b).symm ▸ h.1, u.takeByte_addressBound b h.2⟩

theorem BusSide.Sound.takeBytes {u : BusSide} (h : u.Sound) (l : List Byte) : (u.takeBytes l).Sound :=
  ⟨(u.takeBytes_addr l).symm ▸ h.1, u.takeBytes_addressBound l h.2⟩

theorem BusSide.Sound.openFrame {u : BusSide} (h : u.Sound) : u.openFrame.Sound :=
  ⟨h.1, fun _ hp => by simp at hp⟩

theorem BusSide.Sound.losePayload {u : BusSide} (h : u.Sound) (n : Nat) : (u.losePayload n).Sound :=
  ⟨(freeRegisters_addr u.selection n 0 u.devices).symm ▸ h.1, h.2⟩

/-! ### Where an operation has ended -/

/-- In IDLE the invariant is what it says of STATUS and of the device side. -/
theorem State.Inv.of_idle {s : State E} (hp : s.phase = .idle) (herr : s.status = .transport → s.xerr ≠ none)
    (hfresh : s.status = .none → s.xerr = none ∧ s.tempQ4 = none) (hbus : s.bus.Sound) : s.Inv where
  inFlight h := absurd hp (s.busy_eq_true_iff.mp h)
  frame h    := by simp [hp] at h
  payload h  := by simp [hp] at h
  reading h  := by simp [hp] at h
  err        := herr
  fresh      := hfresh
  devices    := hbus.1
  address    := hbus.2

theorem endWith_inv {s : State E} {st : Status} (h : s.bus.Sound) (hst : st ≠ .transport ∧ st ≠ .none) :
    (s.endWith st).Inv :=
  .of_idle rfl (fun hs => absurd hs hst.1) (fun hs => absurd hs hst.2) h

theorem endTransport_inv {s : State E} {e : E} (h : s.bus.Sound) : (s.endTransport e).Inv :=
  .of_idle rfl (fun _ => by simp) (fun hs => by simp at hs) h

theorem finishRead_inv {s : State E} {q : Count} (h : s.bus.Sound) : (s.finishRead q).Inv :=
  .of_idle rfl (fun hs => by simp at hs) (fun hs => by simp at hs) h

/-- Settles O2: after reset the outputs hold no value and no device is listed. -/
theorem resetMeetsInvariant : Obligations.ResetMeetsInvariant :=
  .of_idle rfl (fun h => by simp at h) (fun _ => ⟨rfl, rfl⟩) ⟨List.nodup_nil, fun _ h => by cases h⟩

/-! ### From phase to phase -/

theorem State.Inv.startable {s : State E} (h : s.Inv) (hp : s.phase ≠ .idle) : Startable s.req :=
  h.inFlight (s.busy_eq_true_iff.mpr hp)

theorem enter_reset_inv {s : State E} (h : s.Inv) (w : ReqWord) (hw : Startable w) :
    ((s.latch w).enter .reset).Inv where
  inFlight _ := hw
  frame hp   := by simp at hp
  payload hp := by simp at hp
  reading hp := by simp at hp
  err        := h.err
  fresh      := h.fresh
  devices    := h.devices
  address    := h.address

theorem stepReset_inv {s : State E} (h : s.Inv) (hp : s.phase = .reset) : s.stepReset.Inv := by
  rcases stepReset_cases s with ⟨_, ht⟩ | ⟨as, _, ht⟩ | ⟨e, as, _, ht⟩ | ⟨as, _, _, ht⟩ | ⟨as, cmd, _, hc, ht⟩ <;> rw [ht]
  · exact h
  · exact endWith_inv h.sound (by decide)
  · exact endTransport_inv h.sound
  · exact endWith_inv h.sound (by decide)
  · have opened := h.sound.openFrame
    exact {
      inFlight := fun _ => h.startable (by simp [hp])
      frame    := fun _ => ⟨cmd, hc, rfl, rfl⟩
      payload  := fun hq => by simp at hq
      reading  := fun hq => by simp at hq
      err      := h.err
      fresh    := h.fresh
      devices  := opened.1
      address  := opened.2 }

/-- What follows a written frame, on the state `u` that `s` is once the frame has been written. -/
theorem afterFrame_inv {s u : State E} (h : s.Inv) (hp : s.phase = .sendFrame) (hu : u.bus.Sound)
    (hreq : u.req = s.req) (hstatus : u.status = s.status) (hxerr : u.xerr = s.xerr) (htemp : u.tempQ4 = s.tempQ4) :
    u.afterFrame.Inv := by
  have startable : Startable u.req := hreq ▸ h.startable (by simp [hp])
  have err : u.status = .transport → u.xerr ≠ none := by rw [hstatus, hxerr]; exact h.err
  have fresh : u.status = .none → u.xerr = none ∧ u.tempQ4 = none := by rw [hstatus, hxerr, htemp]; exact h.fresh
  rcases afterFrame_cases u with ⟨_, ht⟩ | ⟨hop, ht⟩ | ⟨hop, ht⟩ | ⟨_, ht⟩ <;> rw [ht]
  · exact endWith_inv hu (by decide)
  · exact {
      inFlight := fun _ => startable
      frame    := fun hq => by simp at hq
      payload  := fun hq => by simp at hq
      reading  := fun _ => hop
      err      := err
      fresh    := fresh
      devices  := hu.1
      address  := hu.2 }
  · exact {
      inFlight := fun _ => startable
      frame    := fun hq => by simp at hq
      payload  := fun _ => ⟨hop, rfl⟩
      reading  := fun hq => by simp at hq
      err      := err
      fresh    := fresh
      devices  := hu.1
      address  := hu.2 }
  · exact endWith_inv hu (by decide)

theorem stepSendFrame_inv {s : State E} (h : s.Inv) (hp : s.phase = .sendFrame) : s.stepSendFrame.Inv := by
  rcases stepSendFrame_cases s with ⟨_, ht⟩ | ⟨as, _, ht⟩ | ⟨e, as, _, ht⟩ <;> rw [ht]
  · exact h
  · exact afterFrame_inv h hp (h.sound.takeBytes _) rfl rfl rfl rfl
  · exact endTransport_inv (h.sound.takeBytes _)

theorem stepSendPayload_inv {s : State E} (h : s.Inv) : s.stepSendPayload.Inv := by
  rcases stepSendPayload_cases s with ⟨_, ht⟩ | ⟨as, _, ht⟩ | ⟨e, as, _, ht⟩ <;> rw [ht]
  · exact h
  · exact endWith_inv (h.sound.takeBytes _) (by decide)
  · exact endTransport_inv ((h.sound.takeBytes _).losePayload _)

theorem stepReadSp_inv {s : State E} (h : s.Inv) (hp : s.phase = .readSp) : s.stepReadSp.Inv := by
  rcases stepReadSp_cases s with ⟨_, ht⟩ | ⟨sp, as, _, ht⟩ | ⟨e, as, _, ht⟩ <;> rw [ht]
  · exact h
  · exact {
      inFlight := fun _ => h.startable (by simp [hp])
      frame    := fun hq => by simp at hq
      payload  := fun hq => by simp at hq
      reading  := fun _ => h.reading (.inl hp)
      err      := h.err
      fresh    := h.fresh
      devices  := h.devices
      address  := h.address }
  · exact endTransport_inv h.sound

theorem endDecode_inv {s : State E} (h : s.Inv) (d : Decoded) : (s.endDecode d).Inv := by
  rcases endDecode_cases d s with ⟨q, _, ht⟩ | ⟨_, ht⟩ | ⟨_, ht⟩ <;> rw [ht]
  · exact finishRead_inv h.sound
  · exact endWith_inv h.sound (by decide)
  · exact endWith_inv h.sound (by decide)

theorem advance_inv {s : State E} (h : s.Inv) : s.advance.Inv := by
  rcases phase_cases s.phase with hp | hp | hp | hp | hp | hp
  · rwa [advance_idle hp]
  · exact advance_decode hp ▸ endDecode_inv h _
  · exact advance_reset hp ▸ stepReset_inv h hp
  · exact advance_sendFrame hp ▸ stepSendFrame_inv h hp
  · exact advance_sendPayload hp ▸ stepSendPayload_inv h
  · exact advance_readSp hp ▸ stepReadSp_inv h hp

theorem proceed_inv {s : State E} (h : s.Inv) : s.proceed.Inv :=
  proceed_induction (P := State.Inv) (fun _ => advance_inv) h

/-! ### A step of the machine -/

theorem requestBody_inv {s : State E} (h : s.Inv) (w : ReqWord) : (requestBody w (s.latch w)).Inv := by
  rcases requestBody_cases w (s.latch w) with ⟨hw, ht⟩ | ⟨_, _, ht⟩ | ⟨_, ht⟩ <;> rw [ht]
  · exact proceed_inv (enter_reset_inv h w hw)
  · exact endWith_inv h.sound (by decide)
  · exact endWith_inv h.sound (by decide)

/-- An abandoned transaction leaves the device side in order (R241). -/
theorem abandonOnBus_sound {s : State E} (h : s.bus.Sound) : s.abandonOnBus.bus.Sound := by
  unfold State.abandonOnBus
  cases s.phase
  case sendFrame   => exact h.takeBytes _
  case sendPayload => exact (h.takeBytes _).losePayload _
  all_goals exact h

theorem blockReset_inv {s : State E} (h : s.Inv) : s.blockReset.Inv :=
  .of_idle rfl (fun hs => nomatch hs) (fun _ => ⟨rfl, rfl⟩) (abandonOnBus_sound h.sound)

theorem withBus_inv {s : State E} (h : s.Inv) {u : BusSide} (hu : u.Sound) : (s.withBus u).Inv :=
  { h with devices := hu.1, address := hu.2 }

/-- Settles O4: a block reset and the end of an operation meet the invariant anew; a byte from the wire, a request and
a step out of a phase keep it. -/
theorem stepKeepsInvariant : Obligations.StepKeepsInvariant := by
  intro s t h hst
  rcases step_cases hst with ⟨_, ht⟩ | ⟨_, b, bs, _, ht⟩ | ⟨_, _, _, _, ht⟩ | ⟨_, _, _, w, ws, _, ht⟩ |
    ⟨_, _, _, ht⟩ | ⟨_, _, _, _, ht⟩ <;> rw [ht]
  · exact blockReset_inv h
  · have onLine : (s.bus.withLine bs).Sound := h.sound
    exact withBus_inv h (onLine.takeByte b)
  · exact h
  · have taken : (s.withRequests ws).Inv := { h with }
    exact requestBody_inv taken w
  · exact endDecode_inv h _
  · exact proceed_inv h

end Sys2Proof.Machine
end

section
/-! The events a step adds (R63, R88, R93): from a state of the invariant only frames and payloads are written, and only
9 bytes are read. -/

namespace Sys2Proof.Machine

variable {E : Type}

/-! ### Frames and payloads -/

theorem commandOf_cases {op : BitVec 3} {cmd : Byte} (h : commandOf op = some cmd) :
    (op = 1 ∧ cmd = 0x44) ∨ (op = 2 ∧ cmd = 0xBE) ∨ (op = 3 ∧ cmd = 0x4E) := by
  rcases op_cases op with rfl | rfl | rfl | rfl | rfl | rfl | rfl | rfl <;>
    simp_all [commandOf, convertTByte, readScratchpadByte, writeScratchpadByte, eq_comm]

theorem isFrame_buildFrame {op : BitVec 3} {cmd : Byte} (h : commandOf op = some cmd) (t : Target) :
    IsFrame (buildFrame t cmd) := by
  refine ⟨cmd, ?_, ?_⟩
  · rcases commandOf_cases h with ⟨_, hc⟩ | ⟨_, hc⟩ | ⟨_, hc⟩ <;> simp [hc]
  · cases t with
    | broadcast   => exact .inl (buildFrame_broadcast cmd)
    | addressed a => exact .inr ⟨a, buildFrame_addressed a cmd⟩

theorem isPayload_packPayload (res : BitVec 2) : IsPayload (packPayload res).bytes := ⟨res, rfl⟩

/-- While FRAME is being sent, all of it is sent (R111). -/
theorem State.Inv.frameBytes {s : State E} (h : s.Inv) (hp : s.phase = .sendFrame) : s.frameBytes = s.frame := by
  obtain ⟨_, _, _, hlen⟩ := h.frame hp
  rw [State.frameBytes, hlen, List.take_length]

theorem State.Inv.isFrame {s : State E} (h : s.Inv) (hp : s.phase = .sendFrame) : IsFrame s.frameBytes := by
  obtain ⟨cmd, hcmd, hframe, _⟩ := h.frame hp
  rw [h.frameBytes hp, hframe]
  exact isFrame_buildFrame hcmd _

theorem State.Inv.isPayload {s : State E} (h : s.Inv) (hp : s.phase = .sendPayload) : IsPayload s.payload.bytes := by
  rw [(h.payload hp).2]
  exact isPayload_packPayload _

/-! ### Events added to the trace -/

/-- From `s` to `t` only legal events have been added to the trace. -/
def AddsLegal (s t : State E) : Prop := ∃ evs, t.trace = s.trace ++ evs ∧ ∀ e ∈ evs, e.Legal

theorem AddsLegal.of_trace_eq {s t : State E} (h : t.trace = s.trace) : AddsLegal s t :=
  ⟨[], by rw [h, List.append_nil], by simp⟩

theorem AddsLegal.trans {s t u : State E} (h : AddsLegal s t) (h' : AddsLegal t u) : AddsLegal s u := by
  obtain ⟨evs, ht, hevs⟩ := h
  obtain ⟨evs', hu, hevs'⟩ := h'
  exact ⟨evs ++ evs', by rw [hu, ht, List.append_assoc], fun e he => (List.mem_append.mp he).elim (hevs e) (hevs' e)⟩

/-- The events of an answered transaction and of the end of an operation, one at a time. -/
theorem AddsLegal.event {s t : State E} {e : Event E} (ht : t.trace = s.trace ++ [e]) (he : e.Legal) : AddsLegal s t :=
  ⟨[e], ht, fun _ h => List.mem_singleton.mp h ▸ he⟩

theorem addsLegal_endWith (s : State E) (st : Status) : AddsLegal s (s.endWith st) := .event rfl trivial
theorem addsLegal_endTransport (s : State E) (e : E) : AddsLegal s (s.endTransport e) := .event rfl trivial
theorem addsLegal_didReset (s : State E) (a : ResetAnswer E) (as : List (ResetAnswer E)) :
    AddsLegal s (s.didReset a as) := .event rfl trivial
theorem addsLegal_didRead (s : State E) (a : ReadAnswer E) (as : List (ReadAnswer E)) :
    AddsLegal s (s.didRead a as) := .event rfl rfl
theorem addsLegal_didWrite (s : State E) {l : List Byte} (h : IsFrame l ∨ IsPayload l) (a : WriteAnswer E)
    (as : List (WriteAnswer E)) : AddsLegal s (s.didWrite l a as) := .event rfl h

/-! ### One step out of a phase -/

theorem stepReset_addsLegal (s : State E) : AddsLegal s s.stepReset := by
  rcases stepReset_cases s with ⟨_, ht⟩ | ⟨as, _, ht⟩ | ⟨e, as, _, ht⟩ | ⟨as, _, _, ht⟩ | ⟨as, cmd, _, _, ht⟩ <;> rw [ht]
  · exact .of_trace_eq rfl
  · exact (addsLegal_didReset s _ as).trans (addsLegal_endWith _ _)
  · exact (addsLegal_didReset s _ as).trans (addsLegal_endTransport _ e)
  · exact (addsLegal_didReset s _ as).trans (addsLegal_endWith _ _)
  · exact (addsLegal_didReset s .present as).trans (.of_trace_eq rfl)

theorem afterFrame_addsLegal (s : State E) : AddsLegal s s.afterFrame := by
  rcases afterFrame_cases s with ⟨_, ht⟩ | ⟨_, ht⟩ | ⟨_, ht⟩ | ⟨_, ht⟩ <;> rw [ht]
  · exact addsLegal_endWith s _
  · exact .of_trace_eq rfl
  · exact .of_trace_eq rfl
  · exact addsLegal_endWith s _

theorem stepSendFrame_addsLegal {s : State E} (h : IsFrame s.frameBytes) : AddsLegal s s.stepSendFrame := by
  rcases stepSendFrame_cases s with ⟨_, ht⟩ | ⟨as, _, ht⟩ | ⟨e, as, _, ht⟩ <;> rw [ht]
  · exact .of_trace_eq rfl
  · have wrote := addsLegal_didWrite s (.inl h) .ok as
    exact wrote.trans (afterFrame_addsLegal (State.sendAll s.frameBytes _))
  · have wrote := addsLegal_didWrite s (.inl h) (.err e) as
    exact wrote.trans (addsLegal_endTransport (State.sendPart s.frameBytes _) e)

theorem stepSendPayload_addsLegal {s : State E} (h : IsPayload s.payload.bytes) : AddsLegal s s.stepSendPayload := by
  rcases stepSendPayload_cases s with ⟨_, ht⟩ | ⟨as, _, ht⟩ | ⟨e, as, _, ht⟩ <;> rw [ht]
  · exact .of_trace_eq rfl
  · have wrote := addsLegal_didWrite s (.inr h) .ok as
    exact wrote.trans (addsLegal_endWith (State.sendAll s.payload.bytes _) .ok)
  · have wrote := addsLegal_didWrite s (.inr h) (.err e) as
    exact wrote.trans (addsLegal_endTransport (State.losePayload _) e)

theorem stepReadSp_addsLegal (s : State E) : AddsLegal s s.stepReadSp := by
  rcases stepReadSp_cases s with ⟨_, ht⟩ | ⟨sp, as, _, ht⟩ | ⟨e, as, _, ht⟩ <;> rw [ht]
  · exact .of_trace_eq rfl
  · exact (addsLegal_didRead s (.bytes sp) as).trans (.of_trace_eq rfl)
  · exact (addsLegal_didRead s _ as).trans (addsLegal_endTransport _ e)

theorem endDecode_addsLegal (d : Decoded) (s : State E) : AddsLegal s (s.endDecode d) := by
  rcases endDecode_cases d s with ⟨q, _, ht⟩ | ⟨_, ht⟩ | ⟨_, ht⟩ <;> rw [ht]
  · exact .event rfl trivial
  · exact addsLegal_endWith s _
  · exact addsLegal_endWith s _

theorem advance_addsLegal {s : State E} (h : s.Inv) : AddsLegal s s.advance := by
  rcases phase_cases s.phase with hp | hp | hp | hp | hp | hp
  · exact .of_trace_eq (by rw [advance_idle hp])
  · exact advance_decode hp ▸ endDecode_addsLegal _ s
  · exact advance_reset hp ▸ stepReset_addsLegal s
  · exact advance_sendFrame hp ▸ stepSendFrame_addsLegal (h.isFrame hp)
  · exact advance_sendPayload hp ▸ stepSendPayload_addsLegal (h.isPayload hp)
  · exact advance_readSp hp ▸ stepReadSp_addsLegal s

/-! ### A step of the machine -/

theorem proceed_addsLegal {s : State E} (h : s.Inv) : AddsLegal s s.proceed :=
  (proceed_induction (P := fun t => t.Inv ∧ AddsLegal s t)
    (fun _ ⟨inv, added⟩ => ⟨advance_inv inv, added.trans (advance_addsLegal inv)⟩) ⟨h, .of_trace_eq rfl⟩).2

theorem requestBody_addsLegal {s : State E} (h : s.Inv) (w : ReqWord) : AddsLegal s (requestBody w (s.latch w)) := by
  rcases requestBody_cases w (s.latch w) with ⟨hw, ht⟩ | ⟨_, _, ht⟩ | ⟨_, ht⟩ <;> rw [ht]
  · exact proceed_addsLegal (enter_reset_inv h w hw)
  · exact addsLegal_endWith (s.latch w) _
  · exact addsLegal_endWith (s.latch w) _

theorem blockReset_trace (s : State E) : s.blockReset.trace = s.trace := by
  change s.abandonOnBus.trace = s.trace
  unfold State.abandonOnBus
  cases s.phase <;> rfl

/-- Settles O36: the invariant says what FRAME and PAYLOAD are while they are written, and every step out of a phase keeps
it, so each event on the way is legal. -/
theorem onlyFramesAndPayloadsAreWritten : Obligations.OnlyFramesAndPayloadsAreWritten := by
  intro s t h hst
  rcases step_cases hst with ⟨_, ht⟩ | ⟨_, b, bs, _, ht⟩ | ⟨_, _, _, _, ht⟩ | ⟨_, _, _, w, ws, _, ht⟩ |
    ⟨_, _, _, ht⟩ | ⟨_, _, _, _, ht⟩ <;> rw [ht]
  · exact AddsLegal.of_trace_eq (blockReset_trace s)
  · exact AddsLegal.of_trace_eq rfl
  · exact AddsLegal.of_trace_eq rfl
  · have taken : (s.withRequests ws).Inv := { h with }
    exact requestBody_addsLegal taken w
  · exact endDecode_addsLegal _ s
  · exact proceed_addsLegal h

end Sys2Proof.Machine
end

section
/-! Decode and encode agree, both ways (30_encoding.md); the words and bytes the spec spells out; and the address bytes of a
frame (R58). -/

namespace Sys2Proof

open Machine

/-! ### From an instruction to its bits and back -/

/-- The fifth row is that of every byte with bit 7 set (R145). -/
theorem decodeConfigRead_of_bit_seven {b : Byte} (h : b.getLsbD 7 = true) :
    decodeConfigRead b = .cfgReadOutOfContract b := by
  have hlt : 3 < cfgIndex b := (three_lt_cfgIndex_iff b).mpr ((three_lt_shift_iff_bit_seven b).mpr h)
  have hne (idx : BitVec 3) (hidx : ¬ 3 < idx) : cfgIndex b ≠ idx := fun he => hidx (he ▸ hlt)
  rw [decodeConfigRead, if_neg (hne 0 (by decide)), if_neg (hne 1 (by decide)), if_neg (hne 2 (by decide)),
    if_neg (hne 3 (by decide))]

/-- Settles O6: a request by the fields of its assembled word, a wire byte by its value, and a configuration byte just read
by the index its row is well formed with. -/
theorem decodeReadsBackEncode : Obligations.DecodeReadsBackEncode := by
  intro i hi
  cases i with
  | trigger a | readTemp a | setRes a
  | reservedOp0 a | reservedOp4 a | reservedOp5 a | reservedOp6 a | reservedOp7 a =>
    simp [encode, decode, decodeRequest]
  | skipRom | matchRom | convertT | writeScratchpad | readScratchpad
  | cfg9Bit | cfg10Bit | cfg11Bit | cfg12Bit => rfl
  | cfgReadIdx0 cfg | cfgReadIdx1 cfg | cfgReadIdx2 cfg | cfgReadIdx3 cfg =>
    have hidx := of_decide_eq_true hi
    simp [encode, decode, decodeConfigRead, cfgIndex, hidx]
  | cfgReadOutOfContract cfg => exact congrArg Except.ok (decodeConfigRead_of_bit_seven hi)

/-! ### From bits to their instruction and back -/

theorem encode_decodeRequest (w : ReqWord) : encode (decodeRequest w) = .request w := by
  have hw := reqWord_fields w
  rcases op_cases (reqOp w) with h | h | h | h | h | h | h | h <;> rw [h] at hw <;>
    simpa [decodeRequest, h, encode] using hw

theorem encode_decodeConfigRead (b : Byte) : encode (decodeConfigRead b) = .configRead b := by
  unfold decodeConfigRead
  split_ifs <;> rfl

theorem encode_of_decodeAddressCommand {b : Byte} {i : Instr} (h : decodeAddressCommand b = .ok i) :
    encode i = .addressCommand b := by
  unfold decodeAddressCommand at h
  split_ifs at h <;> cases h <;> subst b <;> rfl

theorem encode_of_decodeFunctionCommand {b : Byte} {i : Instr} (h : decodeFunctionCommand b = .ok i) :
    encode i = .functionCommand b := by
  unfold decodeFunctionCommand at h
  split_ifs at h <;> cases h <;> subst b <;> rfl

theorem encode_of_decodeConfigWritten {b : Byte} {i : Instr} (h : decodeConfigWritten b = .ok i) :
    encode i = .configWritten b := by
  unfold decodeConfigWritten at h
  split_ifs at h <;> cases h <;> subst b <;> rfl

/-- Settles O7: place by place, each decoder is undone by the encoder. -/
theorem encodeReadsBackDecode : Obligations.EncodeReadsBackDecode := by
  refine fun f i h => ⟨?_, Laws.DecodedIsWellFormed.wf_of_decode f i h⟩
  cases f with
  | request w         => exact Except.ok.inj h ▸ encode_decodeRequest w
  | addressCommand b  => exact encode_of_decodeAddressCommand h
  | functionCommand b => exact encode_of_decodeFunctionCommand h
  | configWritten b   => exact encode_of_decodeConfigWritten h
  | configRead b      => exact Except.ok.inj h ▸ encode_decodeConfigRead b

/-! ### The words and bytes the spec spells out (R84, R90, R97) -/

/-- Settles O8: each of the four words is the assembled word of the fields named. -/
theorem exampleRequestWords : Obligations.ExampleRequestWords := by
  refine ⟨?_, ?_, ?_, ?_⟩ <;> decide

/-- Settles O9: each byte is the one of its row. -/
theorem wireAndConfigurationBytes : Obligations.WireAndConfigurationBytes :=
  ⟨rfl, rfl, rfl, rfl, rfl, rfl, rfl, rfl, rfl, rfl, rfl, rfl, rfl, rfl⟩

/-! ### Address bytes (R58) -/

/-- Bit `i` of the address that bytes spell is a bit of byte `i / 8`, the first byte being the least significant. -/
theorem getLsbD_addrOfBytes (l : List Byte) {i : Nat} (hi : i < 64) :
    (addrOfBytes l).getLsbD i = (l.getD (i / 8) 0).getLsbD (i % 8) := by
  induction l generalizing i with
  | nil => simp [addrOfBytes]
  | cons b bs ih =>
    rcases Nat.lt_or_ge i 8 with h | h
    · simp [addrOfBytes, h, hi, Nat.div_eq_of_lt h, Nat.mod_eq_of_lt h]
    · obtain ⟨j, rfl⟩ := Nat.exists_eq_add_of_le h
      have hj : j < 64 := by omega
      have hrest : (addrOfBytes bs).getLsbD j = (bs.getD (j / 8) 0).getLsbD (j % 8) := ih hj
      simpa [addrOfBytes, hi, hj, Nat.add_div_left, Nat.add_mod_left] using hrest

theorem addrBytes_getElem? (a : Addr) {i : Nat} (hi : i < 8) : (addrBytes a)[i]? = some (a.extractLsb' (8 * i) 8) := by
  interval_cases i <;> rfl

theorem addrOfBytes_addrBytes (a : Addr) : addrOfBytes (addrBytes a) = a := by
  apply BitVec.eq_of_getLsbD_eq
  intro i hi
  have hbyte : (addrBytes a).getD (i / 8) 0 = a.extractLsb' (8 * (i / 8)) 8 := by
    rw [List.getD_eq_getElem?_getD, addrBytes_getElem? a (by omega), Option.getD_some]
  rw [getLsbD_addrOfBytes _ hi, hbyte, BitVec.getLsbD_extractLsb', Nat.div_add_mod]
  simp [Nat.mod_lt]

/-- Settles O10: the 8 bytes follow byte 0 of the frame, and spell the address again. -/
theorem addressBytesLeastSignificantFirst : Obligations.AddressBytesLeastSignificantFirst := by
  refine fun a => ⟨addrBytes_length a, fun i hi => ⟨addrBytes_getElem? a hi, fun cmd => ?_⟩, addrOfBytes_addrBytes a⟩
  rw [buildFrame_addressed, Nat.add_comm, List.getElem?_cons_succ, List.getElem?_append_left (by simpa using hi),
    addrBytes_getElem? a hi]

end Sys2Proof
end

section
/-! Which instruction a step runs, and what it does where there is none (R54, R98, R111, R217): one lemma per place bits are
read from, and the statements about single steps that follow. -/

namespace Sys2Proof.Machine

/-! ### A byte on the wire (R93, R111) -/

section
variable {s : State} {b : Byte} {bs : List Byte} (hr : s.resetLine = false) (hl : s.bus.line = b :: bs)
include hr hl

theorem step_of_placed {f : Fetched} {i : Instr} (hf : s.bus.pos.placeOf b = some f) (hd : decode f = .ok i) :
    step s = exec i (s.withBus (s.bus.withLine bs)) := by
  simp only [step, State.stepWith, fetch_line hr hl, hf, Option.map_some, hd]

theorem step_of_not_decoded {f : Fetched} {e : DecodeError} (hf : s.bus.pos.placeOf b = some f)
    (hd : decode f = .error e) : step s = .refused (notDecoded e) := by
  simp only [step, State.stepWith, fetch_line hr hl, hf, Option.map_some, hd]

theorem step_of_not_placed (hf : s.bus.pos.placeOf b = none) : step s = s.unfetched := by
  simp only [step, State.stepWith, fetch_line hr hl, hf, Option.map_none]

theorem step_of_outOfPlace (hp : s.bus.pos = .closed ∨ s.bus.pos = .supplying) : step s = .fault .byteOutOfPlace := by
  have notPlaced : s.bus.pos.placeOf b = none := by rcases hp with hp | hp <;> rw [hp] <;> rfl
  rcases unfetched_line hr hl with ⟨_, hu⟩ | ⟨⟨hc, hs⟩, _⟩
  · exact (step_of_not_placed hr hl notPlaced).trans hu
  · exact absurd hp (not_or.mpr ⟨hc, hs⟩)

/-- A data byte is taken by the devices. -/
theorem step_of_data (hf : s.bus.pos.placeOf b = none) (hc : s.bus.pos ≠ .closed) (hs : s.bus.pos ≠ .supplying) :
    step s = .next (s.withBus ((s.bus.withLine bs).takeByte b)) := by
  rcases unfetched_line hr hl with ⟨hp, _⟩ | ⟨_, hu⟩
  · exact absurd hp (not_or.mpr ⟨hc, hs⟩)
  · exact (step_of_not_placed hr hl hf).trans hu

/-- An instruction goes on, with its byte taken. -/
theorem step_next_of_placed {f : Fetched} {i : Instr} (hf : s.bus.pos.placeOf b = some f) (hd : decode f = .ok i) :
    step s = .next (s.withBus ((s.bus.withLine bs).takeByte b)) :=
  (step_of_placed hr hl hf hd).trans (exec_wire (s := s.withBus (s.bus.withLine bs)) hf hd)

end

/-! ### The commands of a position (R84 to R90) -/

theorem decode_addressCommand_ok {b : Byte} (h : ¬(b ≠ 0xCC ∧ b ≠ 0x55)) : ∃ i, decode (.addressCommand b) = .ok i := by
  have hb : b = 0xCC ∨ b = 0x55 := by tauto
  rcases hb with rfl | rfl <;> exact ⟨_, rfl⟩

theorem decode_functionCommand_ok {b : Byte} (h : ¬(b ≠ 0x44 ∧ b ≠ 0x4E ∧ b ≠ 0xBE)) :
    ∃ i, decode (.functionCommand b) = .ok i := by
  have hb : b = 0x44 ∨ b = 0x4E ∨ b = 0xBE := by tauto
  rcases hb with rfl | rfl | rfl <;> exact ⟨_, rfl⟩

theorem decode_addressCommand_error {b : Byte} (h : b ≠ 0xCC ∧ b ≠ 0x55) :
    decode (.addressCommand b) = .error (.notAddressCommand b) := by
  rw [decode, decodeAddressCommand, skipRomByte, matchRomByte, if_neg h.1, if_neg h.2]

theorem decode_functionCommand_error {b : Byte} (h : b ≠ 0x44 ∧ b ≠ 0x4E ∧ b ≠ 0xBE) :
    decode (.functionCommand b) = .error (.notFunctionCommand b) := by
  rw [decode, decodeFunctionCommand, convertTByte, writeScratchpadByte, readScratchpadByte, if_neg h.1, if_neg h.2.1,
    if_neg h.2.2]

theorem decodeConfigWritten_error {b : Byte} (h : b ≠ 0x1F ∧ b ≠ 0x3F ∧ b ≠ 0x5F ∧ b ≠ 0x7F) :
    decodeConfigWritten b = .error (.notConfiguration b) := by
  obtain ⟨h1, h2, h3, h4⟩ := h
  rw [decodeConfigWritten, if_neg h1, if_neg h2, if_neg h3, if_neg h4]

theorem placeOf_configuration_of_ok {b : Byte} {i : Instr} (h : decodeConfigWritten b = .ok i) (th tl : Byte) :
    (BusPos.configuration th tl).placeOf b = some (.configWritten b) := by
  simp only [BusPos.placeOf, h]

theorem placeOf_configuration_of_error {b : Byte} {e : DecodeError} (h : decodeConfigWritten b = .error e)
    (th tl : Byte) : (BusPos.configuration th tl).placeOf b = none := by
  simp only [BusPos.placeOf, h]

/-! ### Steps that run an instruction -/

theorem step_of_request {s : State} {w : ReqWord} {ws : List ReqWord} (hr : s.resetLine = false)
    (hl : s.bus.line = []) (hp : s.phase = .idle) (hq : s.requests = w :: ws) :
    step s = exec (decodeRequest w) (s.withRequests ws) := by
  simp only [step_quiet hr hl, hp, hq]

theorem step_of_configRead {s : State} (hr : s.resetLine = false) (hl : s.bus.line = []) (hp : s.phase = .decode) :
    step s = exec (decodeConfigRead s.sp.configuration) s := by
  simp only [step_quiet hr hl, hp]

/-- Settles O12: with the port read in IDLE, the step is that of the first word on it. -/
theorem stepRunsTheRequest : Obligations.StepRunsTheRequest := fun _ w _ hr hl hp hq =>
  ⟨step_of_request hr hl hp hq, Laws.DecodedIsWellFormed.wf_of_request w⟩

/-- Settles O13: each of the three positions places the byte as the format it is decoded by. -/
theorem stepRunsTheWireByte : Obligations.StepRunsTheWireByte := by
  intro s b bs i hr hl h
  rcases h with ⟨hp, hd⟩ | ⟨hp, hd⟩ | ⟨⟨th, tl, hp⟩, hd⟩
  · exact step_of_placed hr hl (hp ▸ rfl) hd
  · exact step_of_placed hr hl (hp ▸ rfl) hd
  · exact step_of_placed hr hl (hp ▸ placeOf_configuration_of_ok hd th tl) hd

/-- Settles O14: in DECODE the step is that of SP's configuration byte. -/
theorem stepRunsTheConfigurationByte : Obligations.StepRunsTheConfigurationByte := fun _ hr hl hp =>
  ⟨step_of_configRead hr hl hp, Laws.DecodedIsWellFormed.wf_of_configRead _⟩

/-- Bits that are an instruction are the next one where they are placed (log 17), and placing them keeps the outputs, the
trace, the answers and the devices. -/
theorem step_place {f : Fetched} {i : Instr} (hd : decode f = .ok i) (s : State) :
    ∃ s', step (s.place f) = exec i s' ∧ s'.status = s.status ∧ s'.xerr = s.xerr ∧
      s'.tempQ4 = s.tempQ4 ∧ s'.trace = s.trace ∧ s'.transport = s.transport ∧ s'.bus.devices = s.bus.devices := by
  cases f with
  | request w =>
    obtain rfl : decodeRequest w = i := Except.ok.inj hd
    have hstep := step_of_request (s := s.place (.request w)) rfl rfl rfl rfl
    exact ⟨_, hstep, rfl, rfl, rfl, rfl, rfl, rfl⟩
  | addressCommand b =>
    have hstep := step_of_placed (s := s.place (.addressCommand b)) rfl rfl rfl hd
    exact ⟨_, hstep, rfl, rfl, rfl, rfl, rfl, rfl⟩
  | functionCommand b =>
    have hstep := step_of_placed (s := s.place (.functionCommand b)) rfl rfl rfl hd
    exact ⟨_, hstep, rfl, rfl, rfl, rfl, rfl, rfl⟩
  | configWritten b =>
    have hstep := step_of_placed (s := s.place (.configWritten b)) rfl rfl (placeOf_configuration_of_ok hd 0 0) hd
    exact ⟨_, hstep, rfl, rfl, rfl, rfl, rfl, rfl⟩
  | configRead b =>
    obtain rfl : decodeConfigRead b = i := Except.ok.inj hd
    have hstep := step_of_configRead (s := s.place (.configRead b)) rfl rfl rfl
    exact ⟨_, hstep, rfl, rfl, rfl, rfl, rfl, rfl⟩

/-- Settles O16: a table word that decodes is placed by the format it decodes in. -/
theorem placedWordRunsNext : Obligations.PlacedWordRunsNext := by
  intro s nbits w i h
  unfold decodeTableWord at h
  split at h
  · next _ hd => exact step_place (Option.some.inj h ▸ hd) s
  · cases h

/-- Settles O25: while busy, taking the word is all. -/
theorem requestsWaitWhileBusy : Obligations.RequestsWaitWhileBusy := fun w s h =>
  exec_decodeRequest_of_not_idle (s.busy_eq_true_iff.mp h) w

/-! ### Steps without an instruction -/

theorem step_of_resetLine {s : State} (h : s.resetLine = true) : step s = .next s.blockReset := by
  simp only [step, State.stepWith, State.fetch, State.unfetched, h, if_true]

/-- With a transaction in flight a step goes on through phases. -/
theorem step_of_transaction {s : State} (hr : s.resetLine = false) (hl : s.bus.line = [])
    (hp : s.phase = .reset ∨ s.phase = .sendFrame ∨ s.phase = .sendPayload ∨ s.phase = .readSp) :
    step s = .next s.proceed := by
  rcases hp with hp | hp | hp | hp <;> simp only [step_quiet hr hl, hp]

/-- In every phase of an operation a step goes on through phases: in DECODE the row that runs ends the read as DECODE
does (R144, R151). -/
theorem step_of_busy {s : State} (hr : s.resetLine = false) (hl : s.bus.line = []) (hp : s.phase ≠ .idle) :
    step s = .next s.proceed := by
  rcases phase_cases s.phase with h | h | h | h | h | h
  · exact absurd h hp
  · have ended : s.advance.phase = .idle := by
      rw [advance_decode h, State.stepDecode]
      rcases endDecode_cases (decodeRecord s.sp) s with ⟨_, _, hd⟩ | ⟨_, hd⟩ | ⟨_, hd⟩ <;> rw [hd] <;> rfl
    rw [proceed_of_advance_idle ended, advance_decode h]
    exact step_of_decode hr hl h rfl
  all_goals exact step_of_transaction hr hl (by simp [h])

/-- Settles O15: reset, data byte, idle port and transaction, each by its lemma. -/
theorem stepWithoutAnInstruction : Obligations.StepWithoutAnInstruction := by
  refine fun s => ⟨step_of_resetLine, fun hr b bs hl h => ?data, fun hr hl hp hq => ?idle, step_of_transaction⟩
  case data =>
    have hdata : s.bus.pos.placeOf b = none ∧ s.bus.pos ≠ .closed ∧ s.bus.pos ≠ .supplying := by
      rcases h with ⟨got, hp⟩ | hp | ⟨th, hp⟩ | ⟨⟨th, tl, hp⟩, hb⟩ <;> rw [hp]
      case inr.inr.inr => exact ⟨placeOf_configuration_of_error (decodeConfigWritten_error hb) th tl, by simp, by simp⟩
      all_goals exact ⟨rfl, by simp, by simp⟩
    exact step_of_data hr hl hdata.1 hdata.2.1 hdata.2.2
  case idle =>
    simp only [step_quiet hr hl, hp, hq]
    rw [proceed_of_advance_eq (advance_idle hp)]

/-- Settles O48: a step that goes on has had the devices take the byte, which keeps the rest of the wire and which devices
there are. -/
theorem wireStepsLeaveTheBlock : Obligations.WireStepsLeaveTheBlock := by
  intro s t hr hl h
  obtain ⟨b, bs, hl⟩ := List.exists_cons_of_ne_nil hl
  rw [step_wire hr hl h]
  refine ⟨rfl, ?_, ?_⟩
  · rw [State.withBus_bus, BusSide.takeByte_line, BusSide.withLine_line, hl, List.tail_cons]
  · rw [State.withBus_bus, BusSide.takeByte_addr, BusSide.withLine_devices]

end Sys2Proof.Machine
end

section
/-! What every step out of a phase keeps of the ports and of the devices' side (R217, R240), and which steps stop (log 14). -/

namespace Sys2Proof.Machine

variable {E : Type}

/-- From `s` to `t` the request port, the reset input, the bytes on the wire and which devices there are stay as they are. -/
structure KeepsPorts (s t : State E) : Prop where
  requests  : t.requests = s.requests
  resetLine : t.resetLine = s.resetLine
  line      : t.bus.line = s.bus.line
  addresses : t.bus.devices.map Device.addr = s.bus.devices.map Device.addr

theorem KeepsPorts.refl (s : State E) : KeepsPorts s s := ⟨rfl, rfl, rfl, rfl⟩

theorem KeepsPorts.trans {s t u : State E} (h : KeepsPorts s t) (h' : KeepsPorts t u) : KeepsPorts s u :=
  ⟨h'.requests.trans h.requests, h'.resetLine.trans h.resetLine, h'.line.trans h.line, h'.addresses.trans h.addresses⟩

theorem stepReset_keepsPorts (s : State E) : KeepsPorts s s.stepReset := by
  rcases stepReset_cases s with ⟨_, h⟩ | ⟨_, _, h⟩ | ⟨_, _, _, h⟩ | ⟨_, _, _, h⟩ | ⟨_, _, _, _, h⟩ <;>
    constructor <;> simp [h]

theorem afterFrame_keepsPorts (s : State E) : KeepsPorts s s.afterFrame := by
  rcases afterFrame_cases s with ⟨_, h⟩ | ⟨_, h⟩ | ⟨_, h⟩ | ⟨_, h⟩ <;> constructor <;> simp [h]

theorem stepSendFrame_keepsPorts (s : State E) : KeepsPorts s s.stepSendFrame := by
  rcases stepSendFrame_cases s with ⟨_, h⟩ | ⟨as, _, h⟩ | ⟨_, _, _, h⟩
  · rw [h]; exact .refl s
  · have sent : KeepsPorts s ((s.didWrite s.frameBytes .ok as).sendAll s.frameBytes) := by constructor <;> simp
    exact h ▸ sent.trans (afterFrame_keepsPorts _)
  · constructor <;> simp [h]

theorem stepSendPayload_keepsPorts (s : State E) : KeepsPorts s s.stepSendPayload := by
  rcases stepSendPayload_cases s with ⟨_, h⟩ | ⟨_, _, h⟩ | ⟨_, _, _, h⟩ <;> constructor <;> simp [h]

theorem stepReadSp_keepsPorts (s : State E) : KeepsPorts s s.stepReadSp := by
  rcases stepReadSp_cases s with ⟨_, h⟩ | ⟨_, _, _, h⟩ | ⟨_, _, _, h⟩ <;> constructor <;> simp [h]

theorem endDecode_keepsPorts (d : Decoded) (s : State E) : KeepsPorts s (s.endDecode d) := by
  rcases endDecode_cases d s with ⟨_, _, h⟩ | ⟨_, h⟩ | ⟨_, h⟩ <;> constructor <;> simp [h]

theorem advance_keepsPorts (s : State E) : KeepsPorts s s.advance := by
  rcases phase_cases s.phase with h | h | h | h | h | h
  · rw [advance_idle h]; exact .refl s
  · exact advance_decode h ▸ endDecode_keepsPorts _ s
  · exact advance_reset h ▸ stepReset_keepsPorts s
  · exact advance_sendFrame h ▸ stepSendFrame_keepsPorts s
  · exact advance_sendPayload h ▸ stepSendPayload_keepsPorts s
  · exact advance_readSp h ▸ stepReadSp_keepsPorts s

theorem proceed_keepsPorts (s : State E) : KeepsPorts s s.proceed :=
  proceed_induction (P := KeepsPorts s) (fun t h => h.trans (advance_keepsPorts t)) (.refl s)

theorem start_keepsPorts (valid : Bool) (s : State E) : KeepsPorts s (s.start valid) := by
  cases valid
  · exact ⟨rfl, rfl, rfl, rfl⟩
  · have entered : KeepsPorts s (s.enter .reset) := ⟨rfl, rfl, rfl, rfl⟩
    exact entered.trans (proceed_keepsPorts _)

/-- What a request leaves of the wire, whichever it is. -/
theorem requestBody_line (w : ReqWord) (s : State E) : (requestBody w s).bus.line = s.bus.line := by
  rcases requestBody_cases w s with ⟨_, h⟩ | ⟨_, _, h⟩ | ⟨_, h⟩ <;> rw [h]
  · exact (proceed_keepsPorts (s.enter .reset)).line
  · rfl
  · rfl

theorem blockReset_line (s : State E) : s.blockReset.bus.line = s.bus.line := by
  change s.abandonOnBus.bus.line = s.bus.line
  unfold State.abandonOnBus
  cases s.phase <;> simp

/-- With nothing on the wire every step goes on, and puts nothing there. -/
theorem step_of_line_nil {s : State} (hl : s.bus.line = []) : ∃ t, step s = .next t ∧ t.bus.line = [] := by
  cases hr : s.resetLine with
  | true => exact ⟨_, step_of_resetLine hr, (blockReset_line s).trans hl⟩
  | false =>
    by_cases hp : s.phase = .idle
    · rcases list_cases s.requests with hq | ⟨w, ws, hq⟩
      · exact ⟨s, (stepWithoutAnInstruction s).2.2.1 hr hl hp hq, hl⟩
      · have hstep := (step_of_request hr hl hp hq).trans (exec_decodeRequest_of_idle (s := s.withRequests ws) hp w)
        exact ⟨_, hstep, (requestBody_line w _).trans hl⟩
    · exact ⟨_, step_of_busy hr hl hp, (proceed_keepsPorts s).line.trans hl⟩

/-! ### Steps that stop (log 14) -/

/-- A byte that is no command at its position is refused. -/
theorem step_of_noCommand {s : State} {b : Byte} {bs : List Byte} (hr : s.resetLine = false)
    (hl : s.bus.line = b :: bs)
    (h : (s.bus.pos = .addressCommand ∧ b ≠ 0xCC ∧ b ≠ 0x55) ∨
      (s.bus.pos = .functionCommand ∧ b ≠ 0x44 ∧ b ≠ 0x4E ∧ b ≠ 0xBE)) :
    step s = .refused (.wireCommandNotStated b) := by
  rcases h with ⟨hp, hb⟩ | ⟨hp, hb⟩
  · exact step_of_not_decoded hr hl (hp ▸ rfl) (decode_addressCommand_error hb)
  · exact step_of_not_decoded hr hl (hp ▸ rfl) (decode_functionCommand_error hb)

/-- At every other position a step takes the byte, and goes on. -/
theorem step_takes_byte {s : State} {b : Byte} {bs : List Byte} (hr : s.resetLine = false) (hl : s.bus.line = b :: bs)
    (hplace : ¬(s.bus.pos = .closed ∨ s.bus.pos = .supplying))
    (hcommand : ¬((s.bus.pos = .addressCommand ∧ b ≠ 0xCC ∧ b ≠ 0x55) ∨
      (s.bus.pos = .functionCommand ∧ b ≠ 0x44 ∧ b ≠ 0x4E ∧ b ≠ 0xBE))) :
    step s = .next (s.withBus ((s.bus.withLine bs).takeByte b)) := by
  obtain ⟨hc, hs⟩ := not_or.mp hplace
  obtain ⟨ha, hf⟩ := not_or.mp hcommand
  cases hp : s.bus.pos with
  | closed    => exact absurd hp hc
  | supplying => exact absurd hp hs
  | addressCommand =>
    obtain ⟨i, hi⟩ := decode_addressCommand_ok fun hb => ha ⟨hp, hb⟩
    exact step_next_of_placed hr hl (hp ▸ rfl) hi
  | functionCommand =>
    obtain ⟨i, hi⟩ := decode_functionCommand_ok fun hb => hf ⟨hp, hb⟩
    exact step_next_of_placed hr hl (hp ▸ rfl) hi
  | address _ | th | tl _ => exact step_of_data hr hl (hp ▸ rfl) hc hs
  | configuration th tl =>
    cases hb : decodeConfigWritten b with
    | ok i    => exact step_next_of_placed hr hl (f := .configWritten b) (hp ▸ placeOf_configuration_of_ok hb th tl) hb
    | error e => exact step_of_data hr hl (hp ▸ placeOf_configuration_of_error hb th tl) hc hs

/-- Settles O17: without a byte on the wire, or at a reset, a step goes on; a byte out of place faults, one that is no
command is refused, and every other one is taken. -/
theorem onlyForeignBytesStopTheMachine : Obligations.OnlyForeignBytesStopTheMachine := by
  refine fun s => ⟨step_of_line_nil, fun hr => ⟨_, step_of_resetLine hr⟩, fun b bs hr hl =>
    ⟨step_of_outOfPlace hr hl, step_of_noCommand hr hl, fun hplace hcommand => ?_⟩⟩
  exact ⟨_, step_takes_byte hr hl hplace hcommand, by simp⟩

end Sys2Proof.Machine
end

section
/-! Waiting for the transport (R54): a transaction without an answer. -/

namespace Sys2Proof.Machine

variable {E : Type}

/-- The transaction of the current phase has no answer. -/
def State.Unanswered (s : State E) : Prop :=
  (s.phase = .reset ∧ s.transport.resets = []) ∨
  ((s.phase = .sendFrame ∨ s.phase = .sendPayload) ∧ s.transport.writes = []) ∨
  (s.phase = .readSp ∧ s.transport.reads = [])

theorem stepSendPayload_of_unanswered {s : State E} (h : s.transport.writes = []) : s.stepSendPayload = s := by
  simp [State.stepSendPayload, h]

theorem stepReadSp_of_unanswered {s : State E} (h : s.transport.reads = []) : s.stepReadSp = s := by
  simp [State.stepReadSp, h]

theorem State.Unanswered.advance_eq {s : State E} (h : s.Unanswered) : s.advance = s := by
  rcases h with ⟨hp, h⟩ | ⟨hp | hp, h⟩ | ⟨hp, h⟩
  · exact (advance_reset hp).trans (stepReset_of_unanswered h)
  · exact (advance_sendFrame hp).trans (stepSendFrame_of_unanswered h)
  · exact (advance_sendPayload hp).trans (stepSendPayload_of_unanswered h)
  · exact (advance_readSp hp).trans (stepReadSp_of_unanswered h)

theorem State.Unanswered.phase_ne_idle {s : State E} (h : s.Unanswered) : s.phase ≠ .idle := by
  rcases h with ⟨hp, _⟩ | ⟨hp | hp, _⟩ | ⟨hp, _⟩ <;> simp [hp]

theorem run_of_step_eq {M : Host.Core} {s : M.State} (h : M.step s = .next s) (n : Nat) : M.run n s = .next s := by
  induction n with
  | zero => rfl
  | succ n ih => rw [Host.Core.run, h]; exact ih

/-- Settles O29: a step out of a phase whose transaction has no answer changes nothing, and so does any number of steps. -/
theorem unansweredOperationsWait : Obligations.UnansweredOperationsWait := by
  intro s n hr hl (h : s.Unanswered)
  have hstep := step_of_busy hr hl h.phase_ne_idle
  rw [proceed_of_advance_eq h.advance_eq] at hstep
  exact ⟨run_of_step_eq (M := core) hstep n, s.busy_eq_true_iff.mpr h.phase_ne_idle⟩

end Sys2Proof.Machine
end

section
/-! A write that fails or is abandoned (R52, R241, R249): what a payload sent in part leaves of the devices, and the block
reset. -/

namespace Sys2Proof.Machine

variable {E : Type}

/-! ### A payload sent in part (R249) -/

/-- Where a payload is taken, some first part of it and the free values after it reach the devices addressed before, and of
those only what R249 names. -/
theorem payloadPrefix_lost {u : BusSide} (h : u.pos = .th) (p : Payload) (k n : Nat) :
    (u.takeBytes (p.bytes.take k)).selection = u.selection ∧
      PayloadLost u.selection u.devices ((u.takeBytes (p.bytes.take k)).losePayload n).devices := by
  have lost (v : BusSide) (hsel : v.selection = u.selection) (hv : PayloadLost u.selection u.devices v.devices) :
      v.selection = u.selection ∧ PayloadLost u.selection u.devices (v.losePayload n).devices := by
    refine ⟨hsel, hv.trans ?_⟩
    rw [BusSide.losePayload_devices, hsel]
    exact freeRegisters_payloadLost u.selection n 0 v.devices
  rcases BusSide.takePayload_cases h p k with hu | hu | hu | hu <;> rw [hu]
  · exact lost u rfl (.refl _ _)
  · exact lost _ rfl (.refl _ _)
  · exact lost _ rfl (.refl _ _)
  · exact lost _ rfl (u.configure_payloadLost p.th p.tl p.configuration)

/-! ### The block reset (R240, R241) -/

theorem abandonOnBus_addresses (s : State E) :
    s.abandonOnBus.bus.devices.map Device.addr = s.bus.devices.map Device.addr := by
  unfold State.abandonOnBus
  cases s.phase <;> simp

theorem abandonOnBus_requests (s : State E) : s.abandonOnBus.requests = s.requests := by
  unfold State.abandonOnBus
  cases s.phase <;> rfl

theorem blockReset_bus (s : State E) : s.blockReset.bus = s.abandonOnBus.bus := rfl
theorem blockReset_transport (s : State E) : s.blockReset.transport = s.ignoreAnswer := rfl

theorem abandonOnBus_of_no_write {s : State E}
    (h : s.phase = .idle ∨ s.phase = .reset ∨ s.phase = .readSp ∨ s.phase = .decode) : s.abandonOnBus = s := by
  rcases h with h | h | h | h <;> simp [State.abandonOnBus, h]

theorem abandonOnBus_of_sendFrame {s : State E} (h : s.phase = .sendFrame) :
    s.abandonOnBus = s.sendPart s.frameBytes := by
  simp [State.abandonOnBus, h]

theorem abandonOnBus_of_sendPayload {s : State E} (h : s.phase = .sendPayload) : s.abandonOnBus = s.losePayload := by
  simp [State.abandonOnBus, h]

/-- Settles O5: a reset sets the registers, and of the transaction in flight it leaves what `abandonOnBus` does to the
devices and drops what `ignoreAnswer` drops. -/
theorem blockResetAbandonsTheOperation : Obligations.BlockResetAbandonsTheOperation := by
  refine fun s hr => ⟨_, step_of_resetLine hr, rfl, rfl, rfl, rfl, rfl, blockReset_trace s, abandonOnBus_requests s, rfl,
    abandonOnBus_addresses s, fun hp => ?noTransaction, fun hp => ?noWrite, fun hp => ?frame, fun hp => ?payload,
    fun hp => ?resetAnswer, fun hp => ?writeAnswer, fun hp => ?readAnswer⟩
  case noTransaction =>
    refine ⟨by rw [blockReset_bus, abandonOnBus_of_no_write (by tauto)], ?_⟩
    rcases hp with hp | hp <;> simp [blockReset_transport, State.ignoreAnswer, hp]
  case noWrite => rw [blockReset_bus, abandonOnBus_of_no_write (by tauto)]
  case frame => exact ⟨_, by rw [blockReset_bus, abandonOnBus_of_sendFrame hp]; rfl⟩
  case payload =>
    have hbus : s.blockReset.bus = s.losePayload.bus := by
      rw [blockReset_bus, abandonOnBus_of_sendPayload hp]
    refine ⟨Config.sentLen s.draws, s.draws, hbus, ?_, fun hth => ?_⟩
    · rw [hbus]
      exact freeRegisters_payloadLost _ s.draws 0 _
    · rw [hbus]
      exact (payloadPrefix_lost hth s.payload _ s.draws).2
  case resetAnswer => simp [blockReset_transport, State.ignoreAnswer, hp]
  case writeAnswer => rcases hp with hp | hp <;> simp [blockReset_transport, State.ignoreAnswer, hp]
  case readAnswer => simp [blockReset_transport, State.ignoreAnswer, hp]

end Sys2Proof.Machine
end

section
/-! Everything one step out of a phase can do to the outputs and to how far the operation has still to go (R22, R251), said
once; what follows for going on through phases: it ends or waits, an operation that waited goes on as if it had not, and an
operation whose transactions are all answered ends. -/

namespace Sys2Proof.Machine

variable {E : Type}

/-! ### One step out of a phase -/

/-- How many steps out of phases are left at most (R22). -/
def Phase.left : Phase → Nat
  | .idle => 0 | .decode => 1 | .sendPayload => 1 | .readSp => 2 | .sendFrame => 3 | .reset => 4

theorem Phase.left_le_four (p : Phase) : p.left ≤ 4 := by cases p <;> decide

theorem Phase.left_pos {p : Phase} (h : p ≠ .idle) : 0 < p.left := by cases p <;> simp_all [Phase.left]

/-- STATUS, XERR and TEMP_Q4 are the same in both states (R251). -/
def SameOutputs (s t : State E) : Prop := t.status = s.status ∧ t.xerr = s.xerr ∧ t.tempQ4 = s.tempQ4

theorem SameOutputs.refl (s : State E) : SameOutputs s s := ⟨rfl, rfl, rfl⟩

theorem SameOutputs.trans {s t u : State E} (h : SameOutputs s t) (h' : SameOutputs t u) : SameOutputs s u :=
  ⟨h'.1.trans h.1, h'.2.1.trans h.2.1, h'.2.2.trans h.2.2⟩

/-- The last event is a transaction answered with the error value `e` (R50). -/
def State.Failed (s : State E) (e : E) : Prop :=
  ∃ ev, s.trace.getLast? = some ev ∧
    (ev = .reset (.err e) ∨ (∃ bytes, ev = .write bytes (.err e)) ∨ ev = .read 9 (.err e))

theorem didReset_failed (s : State E) (e : E) (as : List (ResetAnswer E)) : (s.didReset (.err e) as).Failed e :=
  ⟨_, List.getLast?_concat, .inl rfl⟩

theorem didWrite_failed (s : State E) (l : List Byte) (e : E) (as : List (WriteAnswer E)) :
    (s.didWrite l (.err e) as).Failed e :=
  ⟨_, List.getLast?_concat, .inr (.inl ⟨l, rfl⟩)⟩

theorem didRead_failed (s : State E) (e : E) (as : List (ReadAnswer E)) : (s.didRead (.err e) as).Failed e :=
  ⟨_, List.getLast?_concat, .inr (.inr rfl)⟩

/-- What a step out of phase `p` of the state `s` does when it finds an answer: the operation moves on and the outputs
are held, or it ends (R210) on a state `u` that has the outputs of `s`. -/
inductive Moved (p : Phase) (s : State E) : State E → Prop where
  | on {t : State E} (held : SameOutputs s t) (left : t.phase.left < p.left) (busy : t.phase ≠ .idle) : Moved p s t
  | ended {u : State E} {st : Status} (held : SameOutputs s u) : Moved p s (u.endWith st)
  | failed {u : State E} {e : E} (held : SameOutputs s u) (answer : u.Failed e) : Moved p s (u.endTransport e)
  | read (q : Count) : Moved p s (s.finishRead q)

theorem stepReset_moved (s : State E) : s.transport.resets = [] ∨ Moved .reset s s.stepReset := by
  rcases stepReset_cases s with ⟨h, _⟩ | ⟨_, _, ht⟩ | ⟨e, as, _, ht⟩ | ⟨_, _, _, ht⟩ | ⟨_, _, _, _, ht⟩
  · exact .inl h
  · exact .inr (ht ▸ .ended (.refl s))
  · exact .inr (ht ▸ .failed (.refl s) (didReset_failed s e as))
  · exact .inr (ht ▸ .ended (.refl s))
  · exact .inr (ht ▸ .on (.refl s) (by simp [Phase.left]) (by simp))

theorem afterFrame_moved {s u : State E} (h : SameOutputs s u) : Moved .sendFrame s u.afterFrame := by
  rcases afterFrame_cases u with ⟨_, ht⟩ | ⟨_, ht⟩ | ⟨_, ht⟩ | ⟨_, ht⟩ <;> rw [ht]
  · exact .ended h
  · exact .on h (by simp [Phase.left]) (by simp)
  · exact .on h (by simp [Phase.left]) (by simp)
  · exact .ended h

theorem stepSendFrame_moved (s : State E) : s.transport.writes = [] ∨ Moved .sendFrame s s.stepSendFrame := by
  rcases stepSendFrame_cases s with ⟨h, _⟩ | ⟨_, _, ht⟩ | ⟨e, as, _, ht⟩
  · exact .inl h
  · exact .inr (ht ▸ afterFrame_moved (.refl s))
  · exact .inr (ht ▸ .failed (.refl s) (didWrite_failed s s.frameBytes e as))

theorem stepSendPayload_moved (s : State E) : s.transport.writes = [] ∨ Moved .sendPayload s s.stepSendPayload := by
  rcases stepSendPayload_cases s with ⟨h, _⟩ | ⟨_, _, ht⟩ | ⟨e, as, _, ht⟩
  · exact .inl h
  · exact .inr (ht ▸ .ended (.refl s))
  · exact .inr (ht ▸ .failed (.refl s) (didWrite_failed s s.payload.bytes e as))

theorem stepReadSp_moved (s : State E) : s.transport.reads = [] ∨ Moved .readSp s s.stepReadSp := by
  rcases stepReadSp_cases s with ⟨h, _⟩ | ⟨_, _, _, ht⟩ | ⟨e, as, _, ht⟩
  · exact .inl h
  · exact .inr (ht ▸ .on (.refl s) (by simp [Phase.left]) (by simp))
  · exact .inr (ht ▸ .failed (.refl s) (didRead_failed s e as))

theorem stepDecode_moved (s : State E) : Moved .decode s s.stepDecode := by
  rcases endDecode_cases (decodeRecord s.sp) s with ⟨q, _, ht⟩ | ⟨_, ht⟩ | ⟨_, ht⟩ <;> rw [State.stepDecode, ht]
  · exact .read q
  · exact .ended (.refl s)
  · exact .ended (.refl s)

/-- Everything a step out of a phase can do: nothing, in IDLE or for want of an answer, or `Moved` says what. -/
theorem advance_cases (s : State E) :
    ((s.phase = .idle ∨ s.Unanswered) ∧ s.advance = s) ∨ (s.phase ≠ .idle ∧ Moved s.phase s s.advance) := by
  have rests (h : s.phase = .idle ∨ s.Unanswered) : (s.phase = .idle ∨ s.Unanswered) ∧ s.advance = s :=
    ⟨h, h.elim advance_idle State.Unanswered.advance_eq⟩
  rcases phase_cases s.phase with hp | hp | hp | hp | hp | hp
  · exact .inl (rests (.inl hp))
  · exact .inr ⟨by simp [hp], advance_decode hp ▸ hp ▸ stepDecode_moved s⟩
  · exact (stepReset_moved s).imp (fun h => rests (.inr (.inl ⟨hp, h⟩)))
      fun h => ⟨by simp [hp], advance_reset hp ▸ hp ▸ h⟩
  · exact (stepSendFrame_moved s).imp (fun h => rests (.inr (.inr (.inl ⟨.inl hp, h⟩))))
      fun h => ⟨by simp [hp], advance_sendFrame hp ▸ hp ▸ h⟩
  · exact (stepSendPayload_moved s).imp (fun h => rests (.inr (.inr (.inl ⟨.inr hp, h⟩))))
      fun h => ⟨by simp [hp], advance_sendPayload hp ▸ hp ▸ h⟩
  · exact (stepReadSp_moved s).imp (fun h => rests (.inr (.inr (.inr ⟨hp, h⟩))))
      fun h => ⟨by simp [hp], advance_readSp hp ▸ hp ▸ h⟩

/-! ### Going on comes to rest -/

theorem Moved.left_lt {p : Phase} {s t : State E} (h : Moved p s t) (hp : p ≠ .idle) : t.phase.left < p.left := by
  cases h with
  | on _ left _ => exact left
  | ended | failed | read => exact Phase.left_pos hp

/-- A step out of a phase leaves the state as it is, or leaves fewer steps. -/
theorem advance_left (s : State E) : s.advance = s ∨ s.advance.phase.left < s.phase.left := by
  rcases advance_cases s with ⟨_, h⟩ | ⟨hp, h⟩
  · exact .inl h
  · exact .inr (h.left_lt hp)

/-- As many steps as are left lead to where no further step changes anything. -/
theorem advances_advance_of_left_le {n : Nat} {s : State E} (h : s.phase.left ≤ n) :
    (s.advances n).advance = s.advances n := by
  induction n generalizing s with
  | zero =>
    rcases advance_left s with hs | hlt
    · exact hs
    · omega
  | succ n ih =>
    rcases advance_left s with hs | hlt
    · rw [advances_of_advance_eq hs, hs]
    · exact ih (by omega)

theorem proceed_rests (s : State E) : s.proceed.advance = s.proceed :=
  advances_advance_of_left_le s.phase.left_le_four

theorem advance_advances (n : Nat) (s : State E) : s.advance.advances n = (s.advances n).advance := by
  induction n generalizing s with
  | zero => rfl
  | succ n ih => exact ih s.advance

/-- Where going on leads does not change by the first step on the way. -/
theorem advance_proceed (s : State E) : s.advance.proceed = s.proceed :=
  (advance_advances 4 s).trans (proceed_rests s)

/-- Going on ends in IDLE or waits for an answer. -/
theorem proceed_idle_or_unanswered (s : State E) : s.proceed.phase = .idle ∨ s.proceed.Unanswered := by
  rcases advance_cases s.proceed with ⟨h, _⟩ | ⟨hp, h⟩
  · exact h
  · have hlt := h.left_lt hp
    rw [proceed_rests] at hlt
    exact absurd hlt (lt_irrefl _)

/-! ### An answered operation ends (R54) -/

/-- The transport has an answer for every transaction that the operation in flight has still to come to. -/
structure State.Provided (s : State E) : Prop where
  reset       : s.phase = .reset → s.transport.Ready
  sendFrame   : s.phase = .sendFrame → 2 ≤ s.transport.writes.length ∧ s.transport.reads ≠ []
  sendPayload : s.phase = .sendPayload → s.transport.writes ≠ []
  readSp      : s.phase = .readSp → s.transport.reads ≠ []

theorem provided_of_ready {s : State E} (h : s.transport.Ready) : s.Provided :=
  have ⟨_, hwrites, hreads⟩ := h
  ⟨fun _ => h, fun _ => ⟨hwrites, hreads⟩, fun _ he => by simp [he] at hwrites, fun _ => hreads⟩

theorem provided_of_idle_or_decode {s : State E} (h : s.phase = .idle ∨ s.phase = .decode) : s.Provided := by
  rcases h with h | h <;> constructor <;> simp [h]

theorem State.Provided.not_unanswered {s : State E} (h : s.Provided) : ¬ s.Unanswered := by
  rintro (⟨hp, hr⟩ | ⟨hp | hp, hw⟩ | ⟨hp, hd⟩)
  · exact (h.reset hp).1 hr
  · have := (h.sendFrame hp).1
    simp [hw] at this
  · exact h.sendPayload hp hw
  · exact h.readSp hp hd

theorem stepReset_provided {s : State E} (h : s.Provided) (hp : s.phase = .reset) : s.stepReset.Provided := by
  have ⟨_, hwrites, hreads⟩ := h.reset hp
  rcases stepReset_cases s with ⟨_, ht⟩ | ⟨_, _, ht⟩ | ⟨_, _, _, ht⟩ | ⟨_, _, _, ht⟩ | ⟨_, _, _, _, ht⟩ <;> rw [ht]
  case inl => exact h
  case inr.inr.inr.inr => constructor <;> simp [hwrites, hreads]
  all_goals exact provided_of_idle_or_decode (.inl rfl)

theorem afterFrame_provided {s : State E} (hwrites : s.transport.writes ≠ []) (hreads : s.transport.reads ≠ []) :
    s.afterFrame.Provided := by
  rcases afterFrame_cases s with ⟨_, ht⟩ | ⟨_, ht⟩ | ⟨_, ht⟩ | ⟨_, ht⟩ <;> rw [ht]
  · exact provided_of_idle_or_decode (.inl rfl)
  · constructor <;> simp [hreads]
  · constructor <;> simp [hwrites]
  · exact provided_of_idle_or_decode (.inl rfl)

theorem stepSendFrame_provided {s : State E} (h : s.Provided) (hp : s.phase = .sendFrame) :
    s.stepSendFrame.Provided := by
  have ⟨hwrites, hreads⟩ := h.sendFrame hp
  rcases stepSendFrame_cases s with ⟨_, ht⟩ | ⟨as, hw, ht⟩ | ⟨_, _, _, ht⟩ <;> rw [ht]
  · exact h
  · have hmore : as ≠ [] := fun he => by simp [hw, he] at hwrites
    exact afterFrame_provided hmore hreads
  · exact provided_of_idle_or_decode (.inl rfl)

theorem advance_provided {s : State E} (h : s.Provided) : s.advance.Provided := by
  rcases phase_cases s.phase with hp | hp | hp | hp | hp | hp
  · rwa [advance_idle hp]
  · rw [advance_decode hp, State.stepDecode]
    rcases endDecode_cases (decodeRecord s.sp) s with ⟨_, _, ht⟩ | ⟨_, ht⟩ | ⟨_, ht⟩ <;> rw [ht] <;>
      exact provided_of_idle_or_decode (.inl rfl)
  · exact advance_reset hp ▸ stepReset_provided h hp
  · exact advance_sendFrame hp ▸ stepSendFrame_provided h hp
  · rw [advance_sendPayload hp]
    rcases stepSendPayload_cases s with ⟨_, ht⟩ | ⟨_, _, ht⟩ | ⟨_, _, _, ht⟩ <;> rw [ht]
    · exact h
    all_goals exact provided_of_idle_or_decode (.inl rfl)
  · rw [advance_readSp hp]
    rcases stepReadSp_cases s with ⟨_, ht⟩ | ⟨_, _, _, ht⟩ | ⟨_, _, _, ht⟩ <;> rw [ht]
    · exact h
    · exact provided_of_idle_or_decode (.inr rfl)
    · exact provided_of_idle_or_decode (.inl rfl)

theorem proceed_phase_of_provided {s : State E} (h : s.Provided) : s.proceed.phase = .idle :=
  have provided : s.proceed.Provided := proceed_induction (P := State.Provided) (fun _ => advance_provided) h
  (proceed_idle_or_unanswered s).resolve_right provided.not_unanswered

/-- Where an operation in flight has ended, its `Done` is the last event (R210). -/
def State.DoneIfIdle (s : State E) : Prop := s.phase = .idle → s.trace.getLast? = some (.done s.status)

theorem Moved.doneIfIdle {p : Phase} {s t : State E} (h : Moved p s t) : t.DoneIfIdle := by
  cases h with
  | on _ _ busy => exact fun hp => absurd hp busy
  | ended | failed | read => exact fun _ => List.getLast?_concat

theorem advance_doneIfIdle {s : State E} (h : s.DoneIfIdle) : s.advance.DoneIfIdle := by
  rcases advance_cases s with ⟨_, hs⟩ | ⟨_, hmoved⟩
  · rwa [hs]
  · exact hmoved.doneIfIdle

/-- Settles O28: a step goes on through phases, and cannot come to rest before IDLE where every answer is there. -/
theorem answeredOperationsEnd : Obligations.AnsweredOperationsEnd := by
  intro s _ hbusy hr hl hready
  have hp := s.busy_eq_true_iff.mp hbusy
  have hidle := proceed_phase_of_provided (provided_of_ready hready)
  have done : s.proceed.DoneIfIdle :=
    proceed_induction (P := State.DoneIfIdle) (fun _ => advance_doneIfIdle) fun h => absurd h hp
  exact ⟨_, step_of_busy hr hl hp, hidle, done hidle⟩

/-! ### The outputs from one state to a later one (R205, R251) -/

/-- What holds wherever the outputs are held and wherever an operation has ended, and is kept by a step out of a phase, holds
after every step of the machine, block reset apart. -/
theorem step_outputs_induction {s t : State} {P : State → Prop} (hr : s.resetLine = false) (h : step s = .next t)
    (held : ∀ u, SameOutputs s u → P u) (ended : ∀ u st, SameOutputs s u → P (u.endWith st))
    (advance : ∀ u, P u → P u.advance) : P t := by
  rcases step_cases h with ⟨hreset, _⟩ | ⟨_, _, _, _, ht⟩ | ⟨_, _, _, _, ht⟩ | ⟨_, _, _, w, ws, _, ht⟩ |
    ⟨_, _, hp, ht⟩ | ⟨_, _, _, _, ht⟩
  · exact absurd hreset (Bool.eq_false_iff.mp hr)
  · exact ht ▸ held _ (.refl s)
  · exact ht ▸ held s (.refl s)
  · rw [ht]
    rcases requestBody_cases w ((s.withRequests ws).latch w) with ⟨_, hb⟩ | ⟨_, _, hb⟩ | ⟨_, hb⟩ <;> rw [hb]
    · exact proceed_induction advance (held _ (.refl s))
    · exact ended _ _ (.refl s)
    · exact ended _ _ (.refl s)
  · exact ht ▸ advance_decode hp ▸ advance s (held s (.refl s))
  · exact ht ▸ proceed_induction advance (held s (.refl s))

/-- Settles O35: an operation that has not ended has moved on, which holds the outputs. -/
theorem outputsHeldWhileBusy : Obligations.OutputsHeldWhileBusy := by
  intro s t hr h hbusy
  refine step_outputs_induction (P := fun u => u.phase ≠ .idle → SameOutputs s u) hr h (fun _ held _ => held)
    (fun _ _ _ hp => absurd rfl hp) (fun u hu hp => ?_) (t.busy_eq_true_iff.mp hbusy)
  rcases advance_cases u with ⟨_, hs⟩ | ⟨hbefore, hmoved⟩
  · rw [hs] at hp ⊢
    exact hu hp
  · generalize u.advance = v at hmoved hp
    cases hmoved with
    | on held _ _ => exact (hu hbefore).trans held
    | ended | failed | read => exact absurd rfl hp

/-- An operation has just ended with TRANSPORT, and XERR holds the error value of the answer before its `Done` (R205). -/
def State.Forwarded (t : State E) : Prop :=
  t.status = .transport ∧ t.phase = .idle ∧
    ∃ e ev, t.xerr = some e ∧ t.trace.getLast? = some (.done .transport) ∧ t.trace.dropLast.getLast? = some ev ∧
      (ev = .reset (.err e) ∨ (∃ bytes, ev = .write bytes (.err e)) ∨ ev = .read 9 (.err e))

theorem endTransport_forwarded {s : State E} {e : E} (h : s.Failed e) : (s.endTransport e).Forwarded := by
  obtain ⟨ev, hlast, hev⟩ := h
  exact ⟨rfl, rfl, e, ev, rfl, List.getLast?_concat, by rw [State.endTransport_trace, List.dropLast_concat, hlast], hev⟩

/-- Settles O34: of the ways to move on or to end only the failed answer writes XERR, with its own value. -/
theorem errorValueForwardedVerbatim : Obligations.ErrorValueForwardedVerbatim := by
  intro s t hr h hne
  refine (step_outputs_induction (P := fun u => u.xerr = s.xerr ∨ u.Forwarded) hr h (fun _ held => .inl held.2.1)
    (fun _ _ held => .inl held.2.1) (fun u hu => ?_)).resolve_left hne
  rcases advance_cases u with ⟨_, hs⟩ | ⟨hbefore, hmoved⟩
  · rwa [hs]
  · have hkept : u.xerr = s.xerr := hu.resolve_right fun hf => hbefore hf.2.1
    generalize u.advance = v at hmoved
    cases hmoved with
    | on held _ _       => exact .inl (held.2.1.trans hkept)
    | ended held        => exact .inl (held.2.1.trans hkept)
    | failed _ answer   => exact .inr (endTransport_forwarded answer)
    | read q            => exact .inl hkept

end Sys2Proof.Machine
end

section
/-! Waiting changes nothing (R66): with further answers behind those it has, a step out of a phase is the same step, so
an operation that waited goes on to where it would have gone at once. -/

namespace Sys2Proof.Machine

variable {E : Type}

/-! ### One transaction, by its answer -/

theorem stepReset_of_no_command {s : State E} {rs : List (ResetAnswer E)} (h : s.transport.resets = .present :: rs)
    (hc : s.command = none) : s.stepReset = (s.didReset .present rs).endWith .illegalOp := by
  simp [State.stepReset, h, hc]

theorem stepSendPayload_of_ok {s : State E} {ws : List (WriteAnswer E)} (h : s.transport.writes = .ok :: ws) :
    s.stepSendPayload = ((s.didWrite s.payload.bytes .ok ws).sendAll s.payload.bytes).endWith .ok := by
  simp [State.stepSendPayload, h]

theorem stepSendPayload_of_err {s : State E} {e : E} {ws : List (WriteAnswer E)}
    (h : s.transport.writes = .err e :: ws) :
    s.stepSendPayload = ((s.didWrite s.payload.bytes (.err e) ws).losePayload).endTransport e := by
  simp [State.stepSendPayload, h]

theorem stepReadSp_of_bytes {s : State E} {sp : Scratchpad} {ds : List (ReadAnswer E)}
    (h : s.transport.reads = .bytes sp :: ds) : s.stepReadSp = (s.didRead (.bytes sp) ds).loadRecord sp := by
  simp [State.stepReadSp, h]

theorem stepReadSp_of_err {s : State E} {e : E} {ds : List (ReadAnswer E)} (h : s.transport.reads = .err e :: ds) :
    s.stepReadSp = (s.didRead (.err e) ds).endTransport e := by
  simp [State.stepReadSp, h]

/-! ### Further answers -/

/-- The transport has the answers `x` behind those it has. -/
def State.moreAnswers (x : Transport E) (s : State E) : State E := { s with transport := s.transport.append x }

section
variable (x : Transport E) (s : State E)

@[simp] theorem State.moreAnswers_resets :
    (s.moreAnswers x).transport.resets = s.transport.resets ++ x.resets := rfl
@[simp] theorem State.moreAnswers_writes :
    (s.moreAnswers x).transport.writes = s.transport.writes ++ x.writes := rfl
@[simp] theorem State.moreAnswers_reads :
    (s.moreAnswers x).transport.reads = s.transport.reads ++ x.reads := rfl

theorem endDecode_moreAnswers (d : Decoded) : (s.moreAnswers x).endDecode d = (s.endDecode d).moreAnswers x := by
  cases d <;> rfl

theorem afterFrame_moreAnswers : (s.moreAnswers x).afterFrame = s.afterFrame.moreAnswers x := by
  have hreq : (s.moreAnswers x).req = s.req := rfl
  simp only [State.afterFrame, hreq]
  split_ifs <;> rfl

theorem stepReset_moreAnswers :
    s.transport.resets = [] ∨ (s.moreAnswers x).stepReset = s.stepReset.moreAnswers x := by
  rcases stepReset_cases s with ⟨h, _⟩ | ⟨as, h, ht⟩ | ⟨e, as, h, ht⟩ | ⟨as, h, hc, ht⟩ | ⟨as, cmd, h, hc, ht⟩
  · exact .inl h
  · exact .inr (ht ▸ stepReset_of_absent (rs := as ++ x.resets) (by simp [h]))
  · exact .inr (ht ▸ stepReset_of_err (rs := as ++ x.resets) (by simp [h]))
  · exact .inr (ht ▸ stepReset_of_no_command (rs := as ++ x.resets) (by simp [h]) hc)
  · exact .inr (ht ▸ stepReset_of_present (rs := as ++ x.resets) (by simp [h]) hc)

theorem stepSendFrame_moreAnswers :
    s.transport.writes = [] ∨ (s.moreAnswers x).stepSendFrame = s.stepSendFrame.moreAnswers x := by
  rcases stepSendFrame_cases s with ⟨h, _⟩ | ⟨as, h, ht⟩ | ⟨e, as, h, ht⟩
  · exact .inl h
  · rw [ht, ← afterFrame_moreAnswers]
    exact .inr (stepSendFrame_of_ok (ws := as ++ x.writes) (by simp [h]))
  · exact .inr (ht ▸ stepSendFrame_of_err (ws := as ++ x.writes) (by simp [h]))

theorem stepSendPayload_moreAnswers :
    s.transport.writes = [] ∨ (s.moreAnswers x).stepSendPayload = s.stepSendPayload.moreAnswers x := by
  rcases stepSendPayload_cases s with ⟨h, _⟩ | ⟨as, h, ht⟩ | ⟨e, as, h, ht⟩
  · exact .inl h
  · exact .inr (ht ▸ stepSendPayload_of_ok (ws := as ++ x.writes) (by simp [h]))
  · exact .inr (ht ▸ stepSendPayload_of_err (ws := as ++ x.writes) (by simp [h]))

theorem stepReadSp_moreAnswers :
    s.transport.reads = [] ∨ (s.moreAnswers x).stepReadSp = s.stepReadSp.moreAnswers x := by
  rcases stepReadSp_cases s with ⟨h, _⟩ | ⟨sp, as, h, ht⟩ | ⟨e, as, h, ht⟩
  · exact .inl h
  · exact .inr (ht ▸ stepReadSp_of_bytes (ds := as ++ x.reads) (by simp [h]))
  · exact .inr (ht ▸ stepReadSp_of_err (ds := as ++ x.reads) (by simp [h]))

/-- A step out of a phase finds no answer, or it does the same with further answers behind those there. -/
theorem advance_moreAnswers : s.advance = s ∨ (s.moreAnswers x).advance = s.advance.moreAnswers x := by
  have hphase : (s.moreAnswers x).phase = s.phase := rfl
  rcases phase_cases s.phase with hp | hp | hp | hp | hp | hp
  · exact .inl (advance_idle hp)
  · rw [advance_decode hp, advance_decode (hphase.trans hp)]
    exact .inr (endDecode_moreAnswers x s _)
  · rw [advance_reset hp, advance_reset (hphase.trans hp)]
    exact (stepReset_moreAnswers x s).imp_left stepReset_of_unanswered
  · rw [advance_sendFrame hp, advance_sendFrame (hphase.trans hp)]
    exact (stepSendFrame_moreAnswers x s).imp_left stepSendFrame_of_unanswered
  · rw [advance_sendPayload hp, advance_sendPayload (hphase.trans hp)]
    exact (stepSendPayload_moreAnswers x s).imp_left stepSendPayload_of_unanswered
  · rw [advance_readSp hp, advance_readSp (hphase.trans hp)]
    exact (stepReadSp_moreAnswers x s).imp_left stepReadSp_of_unanswered

end

/-- Going on, and then on again with further answers, is going on with all of them. -/
theorem advances_moreAnswers_proceed (x : Transport E) (n : Nat) (s : State E) :
    ((s.advances n).moreAnswers x).proceed = (s.moreAnswers x).proceed := by
  induction n generalizing s with
  | zero => rfl
  | succ n ih =>
    rw [State.advances, ih]
    rcases advance_moreAnswers x s with h | h
    · rw [h]
    · rw [← h, advance_proceed]

/-! ### The three operations -/

/-- In IDLE the three operations are the start of their code, if their check 2 passes. -/
theorem exec_operation_of_idle {i : Instr} {a : ReqArgs} (hi : i = .trigger a ∨ i = .readTemp a ∨ i = .setRes a) :
    ∃ op cmd valid, commandOf op = some cmd ∧
      ∀ s : State, s.phase = .idle → exec i s = .next ((s.latch (reqWord op a)).start valid) := by
  rcases hi with rfl | rfl | rfl
  · exact ⟨1, _, _, rfl, fun _ h => exec_trigger_of_idle h a⟩
  · exact ⟨2, _, _, rfl, fun _ h => exec_readTemp_of_idle h a⟩
  · exact ⟨3, _, _, rfl, fun _ h => exec_setRes_of_idle h a⟩

/-- Settles O31: the operation has been going on, and further answers behind those it has used up make no difference. -/
theorem waitingChangesNothing : Obligations.WaitingChangesNothing := by
  intro a s t x i hi hp hr hl h hbusy
  obtain ⟨op, _, valid, _, hexec⟩ := exec_operation_of_idle hi
  obtain rfl := Host.Outcome.next.inj ((hexec s hp).symm.trans h)
  have hp' : (s.moreAnswers x).phase = .idle := hp
  refine Eq.trans ?_ (hexec (s.moreAnswers x) hp').symm
  cases valid
  case false => exact absurd rfl ((State.busy_eq_true_iff _).mp hbusy)
  case true =>
    rw [State.start_true_latch] at hbusy ⊢
    have ports : KeepsPorts s (s.began op a).proceed := by
      have began : KeepsPorts s (s.began op a) := ⟨rfl, rfl, rfl, rfl⟩
      exact began.trans (proceed_keepsPorts _)
    have hstep : step ((s.began op a).proceed.moreAnswers x) = .next ((s.began op a).proceed.moreAnswers x).proceed :=
      step_of_busy (ports.resetLine.trans hr) (ports.line.trans hl) ((State.busy_eq_true_iff _).mp hbusy)
    exact hstep.trans (congrArg Host.Outcome.next (advances_moreAnswers_proceed x 4 (s.began op a)))

end Sys2Proof.Machine
end

section
/-! What a run does not depend on (R80): another word in REQ with the same use commutes with every step out of a phase. -/

namespace Sys2Proof.Machine

variable {E F : Type}

/-- A map that commutes with each step out of a phase, where a property that the steps keep holds, commutes with going on. -/
theorem advances_comm {f : State E → State F} {P : State E → Prop} (hkeep : ∀ s, P s → P s.advance)
    (hcomm : ∀ s, P s → (f s).advance = f s.advance) (n : Nat) {s : State E} (h : P s) :
    (f s).advances n = f (s.advances n) := by
  induction n generalizing s with
  | zero => rfl
  | succ n ih => rw [State.advances, State.advances, hcomm s h, ih (hkeep s h)]

/-! ### Fields an operation ignores (R80) -/

/-- The two words are the same as far as an operation uses them: its code, its target, and for SET_RES its resolution. -/
structure SameUse (w w' : ReqWord) : Prop where
  op     : reqOp w' = reqOp w
  target : targetOf (reqArgs w') = targetOf (reqArgs w)
  res    : reqOp w = 3 → (reqArgs w').res = (reqArgs w).res

section
variable {s : State E} {w : ReqWord} (h : SameUse s.req w)
include h

theorem latch_command : (s.latch w).command = s.command := congrArg commandOf h.op

theorem latch_loadFrame (cmd : Byte) : (s.latch w).loadFrame cmd = (s.loadFrame cmd).latch w := by
  have hframe : (s.latch w).frameFor cmd = s.frameFor cmd := congrArg (buildFrame · cmd) h.target
  simp only [State.loadFrame, hframe]
  rfl

theorem latch_afterFrame : (s.latch w).afterFrame = s.afterFrame.latch w := by
  rcases afterFrame_cases s with ⟨hop, ht⟩ | ⟨hop, ht⟩ | ⟨hop, ht⟩ | ⟨hop, ht⟩ <;> rw [ht]
  · exact afterFrame_of_op_one (h.op.trans hop)
  · exact afterFrame_of_op_two (h.op.trans hop)
  · rw [afterFrame_of_op_three (h.op.trans hop), State.loadPayload, State.latch_req, h.res hop]
    rfl
  · rcases afterFrame_cases (s.latch w) with ⟨hop', _⟩ | ⟨hop', _⟩ | ⟨hop', _⟩ | ⟨_, ht'⟩
    · exact absurd (h.op.symm.trans hop') hop.1
    · exact absurd (h.op.symm.trans hop') hop.2.1
    · exact absurd (h.op.symm.trans hop') hop.2.2
    · exact ht'

theorem latch_stepReset : (s.latch w).stepReset = s.stepReset.latch w := by
  have hcommand := latch_command h
  rcases stepReset_cases s with ⟨hr, ht⟩ | ⟨as, hr, ht⟩ | ⟨e, as, hr, ht⟩ | ⟨as, hr, hc, ht⟩ | ⟨as, cmd, hr, hc, ht⟩ <;>
    rw [ht]
  · exact stepReset_of_unanswered hr
  · exact stepReset_of_absent hr
  · exact stepReset_of_err hr
  · exact stepReset_of_no_command hr (hcommand.trans hc)
  · rw [stepReset_of_present (s := s.latch w) hr (hcommand.trans hc)]
    exact latch_loadFrame (s := s.didReset .present as) h cmd

theorem latch_stepSendFrame : (s.latch w).stepSendFrame = s.stepSendFrame.latch w := by
  rcases stepSendFrame_cases s with ⟨hw, ht⟩ | ⟨as, hw, ht⟩ | ⟨e, as, hw, ht⟩ <;> rw [ht]
  · exact stepSendFrame_of_unanswered hw
  · rw [stepSendFrame_of_ok (s := s.latch w) hw]
    exact latch_afterFrame (s := (s.didWrite s.frameBytes .ok as).sendAll s.frameBytes) h
  · exact stepSendFrame_of_err hw

end

section
variable (w : ReqWord) (s : State E)

theorem latch_stepSendPayload : (s.latch w).stepSendPayload = s.stepSendPayload.latch w := by
  rcases stepSendPayload_cases s with ⟨hw, ht⟩ | ⟨as, hw, ht⟩ | ⟨e, as, hw, ht⟩ <;> rw [ht]
  · exact stepSendPayload_of_unanswered hw
  · exact stepSendPayload_of_ok hw
  · exact stepSendPayload_of_err hw

theorem latch_stepReadSp : (s.latch w).stepReadSp = s.stepReadSp.latch w := by
  rcases stepReadSp_cases s with ⟨hd, ht⟩ | ⟨sp, as, hd, ht⟩ | ⟨e, as, hd, ht⟩ <;> rw [ht]
  · exact stepReadSp_of_unanswered hd
  · exact stepReadSp_of_bytes hd
  · exact stepReadSp_of_err hd

theorem latch_stepDecode : (s.latch w).stepDecode = s.stepDecode.latch w := by
  rw [State.stepDecode, State.stepDecode, State.latch_sp]
  cases decodeRecord s.sp <;> rfl

end

theorem latch_advance {w : ReqWord} (s : State E) (h : SameUse s.req w) : (s.latch w).advance = s.advance.latch w := by
  have hphase : (s.latch w).phase = s.phase := rfl
  rcases phase_cases s.phase with hp | hp | hp | hp | hp | hp
  · rw [advance_idle hp, advance_idle (hphase.trans hp)]
  · rw [advance_decode hp, advance_decode (hphase.trans hp), latch_stepDecode]
  · rw [advance_reset hp, advance_reset (hphase.trans hp), latch_stepReset h]
  · rw [advance_sendFrame hp, advance_sendFrame (hphase.trans hp), latch_stepSendFrame h]
  · rw [advance_sendPayload hp, advance_sendPayload (hphase.trans hp), latch_stepSendPayload]
  · rw [advance_readSp hp, advance_readSp (hphase.trans hp), latch_stepReadSp]

/-- An operation started on another word with the same use differs from it in REQ. -/
theorem latch_start {w : ReqWord} (valid : Bool) {s : State E} (h : SameUse s.req w) :
    (s.latch w).start valid = (s.start valid).latch w := by
  cases valid
  case false => rfl
  case true =>
    have hkeep (t : State E) (ht : SameUse t.req w) : SameUse t.advance.req w := t.advance_req.symm ▸ ht
    exact advances_comm (P := fun t => SameUse t.req w) hkeep latch_advance 4 (s := s.enter .reset) h

theorem targetOf_congr {a b : ReqArgs} (hv : a.addrValid = b.addrValid) (ha : a.addrValid = true → a.addr = b.addr) :
    targetOf a = targetOf b := by
  cases h : a.addrValid with
  | true => rw [targetOf_of_addrValid h, targetOf_of_addrValid (hv ▸ h), ha h]
  | false => rw [targetOf_of_not_addrValid h, targetOf_of_not_addrValid (hv ▸ h)]

/-- Settles O39: the two words have the same use, so the runs differ in REQ at most. -/
theorem ignoredFieldsHaveNoEffect : Obligations.IgnoredFieldsHaveNoEffect := by
  intro a b s hp hv hbus haddr blank
  have htarget := targetOf_congr hv haddr
  have agree (op : BitVec 3) (hres : op = 3 → a.res = b.res) (valid : Bool) :
      blank ((s.latch (reqWord op a)).start valid) = blank ((s.latch (reqWord op b)).start valid) := by
    have hsame : SameUse (reqWord op a) (reqWord op b) := by
      constructor <;> simp only [reqOp_reqWord, reqArgs_reqWord]
      · exact htarget.symm
      · exact fun h => (hres h).symm
    have hstart := congrArg blank (latch_start (s := s.latch (reqWord op a)) valid hsame)
    exact hstart.symm
  refine ⟨?_, fun hout => ?_, fun hres => ?_⟩
  · rw [exec_trigger_of_idle hp, exec_trigger_of_idle hp, ← hbus]
    exact congrArg Host.Outcome.next (agree 1 (fun h => absurd h (by decide)) _)
  · rw [exec_readTemp_of_idle hp, exec_readTemp_of_idle hp, ← hbus, ← hout]
    exact congrArg Host.Outcome.next (agree 2 (fun h => absurd h (by decide)) _)
  · rw [exec_setRes_of_idle hp, exec_setRes_of_idle hp, ← hbus]
    exact congrArg Host.Outcome.next (agree 3 (fun _ => hres) _)

end Sys2Proof.Machine
end

section
/-! Error values are never inspected (R9, R205): renaming them commutes with every operation of the sequencer, with every
instruction and with every step, for any two types of error values. -/

namespace Sys2Proof.Machine

variable {E F : Type} (f : E → F)

/-! ### The named updates -/

section
variable (s : State E)

@[simp] theorem rename_resets :
    (s.rename f).transport.resets = s.transport.resets.map (ResetAnswer.rename f) := rfl
@[simp] theorem rename_writes :
    (s.rename f).transport.writes = s.transport.writes.map (WriteAnswer.rename f) := rfl
@[simp] theorem rename_reads :
    (s.rename f).transport.reads = s.transport.reads.map (ReadAnswer.rename f) := rfl

theorem rename_endWith (st : Status) : (s.rename f).endWith st = (s.endWith st).rename f := by
  simp [State.rename, State.endWith, Event.rename]

theorem rename_endTransport (e : E) : (s.rename f).endTransport (f e) = (s.endTransport e).rename f := by
  simp [State.rename, State.endTransport, State.endWith, Event.rename]

theorem rename_finishRead (q : Count) : (s.rename f).finishRead q = (s.finishRead q).rename f := by
  simp [State.rename, State.finishRead, State.endWith, Event.rename]

theorem rename_didReset (a : ResetAnswer E) (as : List (ResetAnswer E)) :
    (s.rename f).didReset (a.rename f) (as.map (ResetAnswer.rename f)) = (s.didReset a as).rename f := by
  simp [State.rename, State.didReset, Event.rename]

theorem rename_didWrite (l : List Byte) (a : WriteAnswer E) (as : List (WriteAnswer E)) :
    (s.rename f).didWrite l (a.rename f) (as.map (WriteAnswer.rename f)) = (s.didWrite l a as).rename f := by
  simp [State.rename, State.didWrite, Event.rename]

theorem rename_didRead (a : ReadAnswer E) (as : List (ReadAnswer E)) :
    (s.rename f).didRead (a.rename f) (as.map (ReadAnswer.rename f)) = (s.didRead a as).rename f := by
  simp [State.rename, State.didRead, Event.rename]

/-! ### The phases -/

theorem rename_stepReset : (s.rename f).stepReset = s.stepReset.rename f := by
  rcases stepReset_cases s with ⟨hr, ht⟩ | ⟨as, hr, ht⟩ | ⟨e, as, hr, ht⟩ | ⟨as, hr, hc, ht⟩ | ⟨as, cmd, hr, hc, ht⟩ <;>
    rw [ht]
  · exact stepReset_of_unanswered (by simp [hr])
  · rw [← rename_endWith, ← rename_didReset]
    exact stepReset_of_absent (by simp [hr, ResetAnswer.rename])
  · rw [← rename_endTransport, ← rename_didReset]
    exact stepReset_of_err (by simp [hr, ResetAnswer.rename])
  · rw [← rename_endWith, ← rename_didReset]
    exact stepReset_of_no_command (by simp [hr, ResetAnswer.rename]) hc
  · have hload (u : State E) : (u.loadFrame cmd).rename f = (u.rename f).loadFrame cmd := rfl
    rw [hload, ← rename_didReset]
    exact stepReset_of_present (by simp [hr, ResetAnswer.rename]) hc

theorem rename_afterFrame : (s.rename f).afterFrame = s.afterFrame.rename f := by
  have hreq : (s.rename f).req = s.req := rfl
  simp only [State.afterFrame, hreq, rename_endWith]
  split_ifs <;> rfl

theorem rename_stepSendFrame : (s.rename f).stepSendFrame = s.stepSendFrame.rename f := by
  rcases stepSendFrame_cases s with ⟨hw, ht⟩ | ⟨as, hw, ht⟩ | ⟨e, as, hw, ht⟩ <;> rw [ht]
  · exact stepSendFrame_of_unanswered (by simp [hw])
  · have hsend (u : State E) : (u.sendAll s.frameBytes).rename f = (u.rename f).sendAll s.frameBytes := rfl
    rw [← rename_afterFrame, hsend, ← rename_didWrite]
    exact stepSendFrame_of_ok (by simp [hw, WriteAnswer.rename])
  · have hsend (u : State E) : (u.sendPart s.frameBytes).rename f = (u.rename f).sendPart s.frameBytes := rfl
    rw [← rename_endTransport, hsend, ← rename_didWrite]
    exact stepSendFrame_of_err (by simp [hw, WriteAnswer.rename])

theorem rename_stepSendPayload : (s.rename f).stepSendPayload = s.stepSendPayload.rename f := by
  rcases stepSendPayload_cases s with ⟨hw, ht⟩ | ⟨as, hw, ht⟩ | ⟨e, as, hw, ht⟩ <;> rw [ht]
  · exact stepSendPayload_of_unanswered (by simp [hw])
  · have hsend (u : State E) : (u.sendAll s.payload.bytes).rename f = (u.rename f).sendAll s.payload.bytes := rfl
    rw [← rename_endWith, hsend, ← rename_didWrite]
    exact stepSendPayload_of_ok (by simp [hw, WriteAnswer.rename])
  · have hlose (u : State E) : u.losePayload.rename f = (u.rename f).losePayload := rfl
    rw [← rename_endTransport, hlose, ← rename_didWrite]
    exact stepSendPayload_of_err (by simp [hw, WriteAnswer.rename])

theorem rename_stepReadSp : (s.rename f).stepReadSp = s.stepReadSp.rename f := by
  rcases stepReadSp_cases s with ⟨hd, ht⟩ | ⟨sp, as, hd, ht⟩ | ⟨e, as, hd, ht⟩ <;> rw [ht]
  · exact stepReadSp_of_unanswered (by simp [hd])
  · have hload (u : State E) : (u.loadRecord sp).rename f = (u.rename f).loadRecord sp := rfl
    rw [hload, ← rename_didRead]
    exact stepReadSp_of_bytes (by simp [hd, ReadAnswer.rename])
  · rw [← rename_endTransport, ← rename_didRead]
    exact stepReadSp_of_err (by simp [hd, ReadAnswer.rename])

theorem rename_endDecode (d : Decoded) : (s.rename f).endDecode d = (s.endDecode d).rename f := by
  cases d with
  | temp q => exact rename_finishRead f s q
  | badCrc => exact rename_endWith f s _
  | badCfg => exact rename_endWith f s _

theorem rename_advance : (s.rename f).advance = s.advance.rename f := by
  have hphase : (s.rename f).phase = s.phase := rfl
  rcases phase_cases s.phase with hp | hp | hp | hp | hp | hp
  · rw [advance_idle hp, advance_idle (hphase.trans hp)]
  · rw [advance_decode hp, advance_decode (hphase.trans hp)]
    exact rename_endDecode f s _
  · rw [advance_reset hp, advance_reset (hphase.trans hp), rename_stepReset]
  · rw [advance_sendFrame hp, advance_sendFrame (hphase.trans hp), rename_stepSendFrame]
  · rw [advance_sendPayload hp, advance_sendPayload (hphase.trans hp), rename_stepSendPayload]
  · rw [advance_readSp hp, advance_readSp (hphase.trans hp), rename_stepReadSp]

theorem rename_proceed : (s.rename f).proceed = s.proceed.rename f :=
  advances_comm (P := fun _ => True) (fun _ _ => trivial) (fun t _ => rename_advance f t) 4 trivial

theorem rename_start (valid : Bool) : (s.rename f).start valid = (s.start valid).rename f := by
  cases valid
  · exact rename_endWith f s _
  · exact rename_proceed f (s.enter .reset)

end

/-! ### Instructions -/

theorem rename_take {w : ReqWord} {body : State E → State E} {body' : State F → State F}
    (h : ∀ s, body' (s.rename f) = (body s).rename f) (s : State E) :
    (s.rename f).take w body' = (s.take w body).rename f := by
  by_cases hp : s.phase = .idle
  · have hp' : (s.rename f).phase = .idle := hp
    rw [State.take_of_idle hp, State.take_of_idle hp', ← h]
    rfl
  · have hp' : (s.rename f).phase ≠ .idle := hp
    rw [State.take_of_not_idle hp, State.take_of_not_idle hp']
    rfl

theorem execOf_rename (i : Instr) (s : State E) :
    execOf i (s.rename f) = mapNext (State.rename f) (execOf i s) := by
  cases i with
  | trigger a | readTemp a | setRes a =>
    exact congrArg Host.Outcome.next (rename_take f (fun t => rename_start f t _) s)
  | reservedOp0 a | reservedOp4 a | reservedOp5 a | reservedOp6 a | reservedOp7 a =>
    exact congrArg Host.Outcome.next (rename_take f (fun t => rename_endWith f t _) s)
  | skipRom | matchRom | convertT | writeScratchpad | readScratchpad
  | cfg9Bit | cfg10Bit | cfg11Bit | cfg12Bit => rfl
  | cfgReadIdx0 | cfgReadIdx1 | cfgReadIdx2 | cfgReadIdx3 | cfgReadOutOfContract =>
    exact congrArg Host.Outcome.next (rename_endDecode f s _)

/-! ### Steps -/

theorem rename_blockReset (s : State E) : (s.rename f).blockReset = s.blockReset.rename f := by
  have hphase : (s.rename f).phase = s.phase := rfl
  simp only [State.blockReset, State.abandonOnBus, State.ignoreAnswer, hphase]
  cases s.phase <;> simp [State.rename, State.sendPart, State.losePayload, State.withBus, State.resetOf,
    State.frameBytes, List.map_tail]

theorem rename_fetch (s : State E) : (s.rename f).fetch = s.fetch.map (Prod.map id (State.rename f)) := by
  have hreset : (s.rename f).resetLine = s.resetLine := rfl
  have hbus : (s.rename f).bus = s.bus := rfl
  have hphase : (s.rename f).phase = s.phase := rfl
  have hrequests : (s.rename f).requests = s.requests := rfl
  simp only [State.fetch, hreset, hbus, hphase, hrequests]
  split_ifs
  · rfl
  cases s.bus.line with
  | cons b bs =>
    dsimp only
    cases s.bus.pos.placeOf b <;> rfl
  | nil =>
    cases s.phase
    case idle => cases s.requests <;> rfl
    all_goals rfl

theorem rename_unfetched (s : State E) : (s.rename f).unfetched = mapNext (State.rename f) s.unfetched := by
  have hreset : (s.rename f).resetLine = s.resetLine := rfl
  have hbus : (s.rename f).bus = s.bus := rfl
  simp only [State.unfetched, hreset, hbus]
  split_ifs
  · exact congrArg Host.Outcome.next (rename_blockReset f s)
  cases s.bus.line with
  | cons b bs => cases s.bus.pos <;> rfl
  | nil => exact congrArg Host.Outcome.next (rename_proceed f s)

theorem stepOf_rename (s : State E) : stepOf (s.rename f) = mapNext (State.rename f) (stepOf s) := by
  simp only [stepOf, State.stepWith, rename_fetch]
  cases s.fetch with
  | none => exact rename_unfetched f s
  | some fetched =>
    obtain ⟨bits, t⟩ := fetched
    simp only [Option.map_some, Prod.map_apply, id_eq]
    cases decode bits with
    | ok i    => exact execOf_rename f i t
    | error e => rfl

/-- Settles O38: renaming commutes with the reading of the next instruction, with its execution and with what happens where
there is none; `exec` and `step` are that machine at one type. -/
theorem errorValuesAreNotInspected : Obligations.ErrorValuesAreNotInspected := by
  refine ⟨fun E F f => ⟨execOf_rename f, stepOf_rename f⟩, exec_eq_execOf, step_eq_stepOf, fun f s => ?_⟩
  rw [step_eq_stepOf, step_eq_stepOf]
  exact stepOf_rename f s

end Sys2Proof.Machine
end

section
/-! No buffer carries anything from one operation to the next (R39): forgetting the buffers that have no meaning in the
current phase makes no difference to what a step leaves, as far as that has a meaning. -/

namespace Sys2Proof.Machine

variable {E : Type}

/-! ### What is forgotten -/

section
variable {s : State E}

theorem forgetDead_req (h : s.phase ≠ .idle) : s.forgetDead.req = s.req := if_neg h

theorem forgetDead_frameBytes (h : s.phase = .sendFrame) : s.forgetDead.frameBytes = s.frameBytes := by
  simp [State.frameBytes, State.forgetDead, h]

theorem forgetDead_payload (h : s.phase = .sendPayload) : s.forgetDead.payload = s.payload := if_pos h

theorem forgetDead_sp (h : s.phase = .decode) : s.forgetDead.sp = s.sp := if_pos h

end

@[simp] theorem forgetDead_forgetDead (s : State E) : s.forgetDead.forgetDead = s.forgetDead := by
  cases h : s.phase <;> simp [State.forgetDead, h]

/-- The two states are the same but for buffers that have no meaning in their phase. -/
def SameLive (s t : State E) : Prop := s.forgetDead = t.forgetDead

theorem sameLive_forgetDead (s : State E) : SameLive s.forgetDead s := forgetDead_forgetDead s

/-! ### One step out of a phase -/

theorem sameLive_stepReset {s : State E} (hp : s.phase = .reset) : SameLive s.forgetDead.stepReset s.stepReset := by
  have hreq : s.forgetDead.req = s.req := forgetDead_req (by simp [hp])
  have hcommand : s.forgetDead.command = s.command := congrArg (fun w => commandOf (reqOp w)) hreq
  rcases stepReset_cases s with ⟨hr, ht⟩ | ⟨as, hr, ht⟩ | ⟨e, as, hr, ht⟩ | ⟨as, hr, hc, ht⟩ | ⟨as, cmd, hr, hc, ht⟩ <;>
    rw [ht]
  · rw [stepReset_of_unanswered (s := s.forgetDead) hr]
    exact sameLive_forgetDead s
  · rw [stepReset_of_absent (s := s.forgetDead) hr]
    rfl
  · rw [stepReset_of_err (s := s.forgetDead) hr]
    rfl
  · rw [stepReset_of_no_command (s := s.forgetDead) hr (hcommand.trans hc)]
    rfl
  · rw [stepReset_of_present (s := s.forgetDead) hr (hcommand.trans hc)]
    simp [SameLive, State.forgetDead, State.loadFrame, State.frameFor, State.didReset, hp]

theorem sameLive_afterFrame {s : State E} (hp : s.phase = .sendFrame) : SameLive s.forgetDead.afterFrame s.afterFrame := by
  have hreq : s.forgetDead.req = s.req := forgetDead_req (by simp [hp])
  simp only [State.afterFrame, hreq]
  split_ifs
  case pos => rfl
  case pos => simp [SameLive, State.forgetDead, State.enter, hp]
  case pos => simp [SameLive, State.forgetDead, State.loadPayload, hp]
  case neg => rfl

theorem sameLive_stepSendFrame {s : State E} (hp : s.phase = .sendFrame) :
    SameLive s.forgetDead.stepSendFrame s.stepSendFrame := by
  have hreq : s.forgetDead.req = s.req := forgetDead_req (by simp [hp])
  have hframe := forgetDead_frameBytes hp
  rcases stepSendFrame_cases s with ⟨hw, ht⟩ | ⟨as, hw, ht⟩ | ⟨e, as, hw, ht⟩ <;> rw [ht]
  · rw [stepSendFrame_of_unanswered (s := s.forgetDead) hw]
    exact sameLive_forgetDead s
  · rw [stepSendFrame_of_ok (s := s.forgetDead) hw, hframe]
    exact sameLive_afterFrame (s := (s.didWrite s.frameBytes .ok as).sendAll s.frameBytes) hp
  · rw [stepSendFrame_of_err (s := s.forgetDead) hw, hframe]
    rfl

theorem sameLive_stepSendPayload {s : State E} (hp : s.phase = .sendPayload) :
    SameLive s.forgetDead.stepSendPayload s.stepSendPayload := by
  have hpayload := forgetDead_payload hp
  rcases stepSendPayload_cases s with ⟨hw, ht⟩ | ⟨as, hw, ht⟩ | ⟨e, as, hw, ht⟩ <;> rw [ht]
  · rw [stepSendPayload_of_unanswered (s := s.forgetDead) hw]
    exact sameLive_forgetDead s
  · rw [stepSendPayload_of_ok (s := s.forgetDead) hw, hpayload]
    rfl
  · rw [stepSendPayload_of_err (s := s.forgetDead) hw, hpayload]
    have hlose (u : State E) (hu : u.phase = .sendPayload) : SameLive (u.forgetDead.losePayload.endTransport e)
        (u.losePayload.endTransport e) := by
      simp only [State.losePayload, forgetDead_payload hu]
      rfl
    exact hlose (s.didWrite s.payload.bytes (.err e) as) hp

theorem sameLive_stepReadSp {s : State E} (hp : s.phase = .readSp) : SameLive s.forgetDead.stepReadSp s.stepReadSp := by
  rcases stepReadSp_cases s with ⟨hd, ht⟩ | ⟨sp, as, hd, ht⟩ | ⟨e, as, hd, ht⟩ <;> rw [ht]
  · rw [stepReadSp_of_unanswered (s := s.forgetDead) hd]
    exact sameLive_forgetDead s
  · rw [stepReadSp_of_bytes (s := s.forgetDead) hd]
    simp [SameLive, State.forgetDead, State.loadRecord, State.didRead, hp]
  · rw [stepReadSp_of_err (s := s.forgetDead) hd]
    rfl

theorem sameLive_stepDecode {s : State E} (hp : s.phase = .decode) : SameLive s.forgetDead.stepDecode s.stepDecode := by
  rw [State.stepDecode, State.stepDecode, forgetDead_sp hp]
  cases decodeRecord s.sp <;> rfl

theorem sameLive_advance_forgetDead (s : State E) : SameLive s.forgetDead.advance s.advance := by
  have hphase : s.forgetDead.phase = s.phase := rfl
  rcases phase_cases s.phase with hp | hp | hp | hp | hp | hp
  · rw [advance_idle hp, advance_idle (hphase.trans hp)]
    exact sameLive_forgetDead s
  · rw [advance_decode hp, advance_decode (hphase.trans hp)]
    exact sameLive_stepDecode hp
  · rw [advance_reset hp, advance_reset (hphase.trans hp)]
    exact sameLive_stepReset hp
  · rw [advance_sendFrame hp, advance_sendFrame (hphase.trans hp)]
    exact sameLive_stepSendFrame hp
  · rw [advance_sendPayload hp, advance_sendPayload (hphase.trans hp)]
    exact sameLive_stepSendPayload hp
  · rw [advance_readSp hp, advance_readSp (hphase.trans hp)]
    exact sameLive_stepReadSp hp

theorem SameLive.advance {s t : State E} (h : SameLive s t) : SameLive s.advance t.advance :=
  calc s.advance.forgetDead = s.forgetDead.advance.forgetDead := (sameLive_advance_forgetDead s).symm
    _ = t.forgetDead.advance.forgetDead := congrArg (fun u => u.advance.forgetDead) h
    _ = t.advance.forgetDead := sameLive_advance_forgetDead t

theorem SameLive.proceed {s t : State E} (h : SameLive s t) : SameLive s.proceed t.proceed :=
  h.advance.advance.advance.advance

/-! ### A step of the machine -/

/-- A request writes REQ before it is read, and starts where no other buffer has a meaning (R39). -/
theorem sameLive_requestBody (w : ReqWord) (s : State E) :
    SameLive (requestBody w (s.forgetDead.latch w)) (requestBody w (s.latch w)) := by
  have started (valid : Bool) : SameLive ((s.forgetDead.latch w).start valid) ((s.latch w).start valid) := by
    cases valid
    case false => rfl
    case true =>
      have entered : SameLive ((s.forgetDead.latch w).enter .reset) ((s.latch w).enter .reset) := rfl
      exact entered.proceed
  unfold requestBody
  split_ifs
  · exact started _
  · exact started _
  · rfl

/-- A block reset reads FRAME and PAYLOAD only while they are being sent (R241), and clears every buffer. -/
theorem blockReset_forgetDead (s : State E) : s.forgetDead.blockReset = s.blockReset := by
  have hphase : s.forgetDead.phase = s.phase := rfl
  cases hp : s.phase
  case sendFrame =>
    simp only [State.blockReset, State.abandonOnBus, State.ignoreAnswer, hphase, hp, forgetDead_frameBytes hp]
    rfl
  case sendPayload =>
    simp only [State.blockReset, State.abandonOnBus, State.ignoreAnswer, hphase, hp, State.losePayload,
      forgetDead_payload hp]
    rfl
  all_goals simp only [State.blockReset, State.abandonOnBus, State.ignoreAnswer, hphase, hp]; rfl

theorem mapNext_congr {s t : State} (h : SameLive s t) :
    mapNext State.forgetDead (.next t) = mapNext State.forgetDead (.next s) :=
  congrArg Host.Outcome.next h.symm

/-- A byte on the wire is taken, faults or is refused whatever the buffers hold. -/
theorem step_forgetDead_of_wire {s : State} {b : Byte} {bs : List Byte} (hr : s.resetLine = false)
    (hl : s.bus.line = b :: bs) :
    mapNext State.forgetDead (step s) = mapNext State.forgetDead (step s.forgetDead) := by
  by_cases hplace : s.bus.pos = .closed ∨ s.bus.pos = .supplying
  · rw [step_of_outOfPlace hr hl hplace, step_of_outOfPlace (s := s.forgetDead) hr hl hplace]
  by_cases hcommand : (s.bus.pos = .addressCommand ∧ b ≠ 0xCC ∧ b ≠ 0x55) ∨
      (s.bus.pos = .functionCommand ∧ b ≠ 0x44 ∧ b ≠ 0x4E ∧ b ≠ 0xBE)
  · rw [step_of_noCommand hr hl hcommand, step_of_noCommand (s := s.forgetDead) hr hl hcommand]
  rw [step_takes_byte hr hl hplace hcommand, step_takes_byte (s := s.forgetDead) hr hl hplace hcommand]
  exact mapNext_congr (sameLive_forgetDead (s.withBus ((s.bus.withLine bs).takeByte b)))

/-- Settles O37: a reset, a byte on the wire, a request and the phases on the way each leave the same, as far as it has a
meaning. -/
theorem deadBuffersDoNotMatter : Obligations.DeadBuffersDoNotMatter := by
  intro s
  cases hr : s.resetLine with
  | true =>
    rw [step_of_resetLine hr, step_of_resetLine (s := s.forgetDead) hr, blockReset_forgetDead]
  | false =>
    rcases list_cases s.bus.line with hl | ⟨b, bs, hl⟩
    · by_cases hp : s.phase = .idle
      · rcases list_cases s.requests with hq | ⟨w, ws, hq⟩
        · have idle {t : State} := (stepWithoutAnInstruction t).2.2.1
          rw [idle hr hl hp hq, idle (t := s.forgetDead) hr hl hp hq]
          exact mapNext_congr (sameLive_forgetDead s)
        · rw [step_of_request hr hl hp hq, step_of_request (s := s.forgetDead) hr hl hp hq,
            exec_decodeRequest_of_idle (s := s.withRequests ws) hp,
            exec_decodeRequest_of_idle (s := s.forgetDead.withRequests ws) hp]
          exact mapNext_congr (sameLive_requestBody w (s.withRequests ws))
      · rw [step_of_busy hr hl hp, step_of_busy (s := s.forgetDead) hr hl hp]
        exact mapNext_congr (sameLive_forgetDead s).proceed
    · exact step_forgetDead_of_wire hr hl

end Sys2Proof.Machine
end

section
/-! What a frame does to the devices (R115, R116, R131, R152, R184): a frame cut short reaches none of them, a whole one
leads to its command with its target addressed. -/

namespace Sys2Proof.Machine

/-! ### The address (R116) -/

theorem BusSide.takeBytes_append (u : BusSide) (l l' : List Byte) : u.takeBytes (l ++ l') = (u.takeBytes l).takeBytes l' :=
  List.foldl_append

/-- Fewer than 8 address bytes are kept, and nobody is addressed by them. -/
theorem takeBytes_address {u : BusSide} {got : List Byte} (hp : u.pos = .address got) {l : List Byte}
    (hlen : got.length + l.length < 8) : u.takeBytes l = { u with pos := .address (got ++ l) } := by
  induction l generalizing u got with
  | nil => rw [List.append_nil, ← hp]; rfl
  | cons b bs ih =>
    have hlen' : (got ++ [b]).length + bs.length < 8 := by simpa [Nat.add_assoc, Nat.add_comm 1] using hlen
    have htake : u.takeByte b = { u with pos := .address (got ++ [b]) } := by
      rw [BusSide.takeByte_address hp, BusSide.takeAddress, if_pos (by simp at hlen; omega)]
    rw [BusSide.takeBytes_cons, htake, ih rfl hlen', List.append_assoc]
    rfl

/-- The eighth address byte selects the device with the address the 8 bytes spell. -/
theorem matchRom_takeBytes_addrBytes (u : BusSide) (a : Addr) :
    u.matchRom.takeBytes (addrBytes a) = { u with pos := .functionCommand, selection := .device a } := by
  have hsplit : addrBytes a = (addrBytes a).take 7 ++ [addrByte a 7] := rfl
  have hseven : u.matchRom.takeBytes ((addrBytes a).take 7) = { u.matchRom with pos := .address ((addrBytes a).take 7) } :=
    takeBytes_address (got := []) rfl (by simp)
  rw [hsplit, BusSide.takeBytes_append, hseven, BusSide.takeBytes_cons, BusSide.takeBytes_nil,
    BusSide.takeByte_address rfl, BusSide.takeAddress, if_neg (by simp), ← hsplit, addrOfBytes_addrBytes]
  rfl

/-- Settles O42: the first seven bytes are kept, the eighth selects, and `covers` compares addresses. -/
theorem matchRomAddressesOneDevice : Obligations.MatchRomAddressesOneDevice := fun u a =>
  ⟨matchRom_takeBytes_addrBytes u a, fun _ => decide_eq_true_iff⟩

/-! ### A frame (R85, R86) -/

/-- Whom a frame to the target addresses (R115, R116). -/
def Target.selection : Target → Selection
  | .broadcast   => .everybody
  | .addressed a => .device a

/-- A frame without its command byte. -/
def Target.preamble : Target → List Byte
  | .broadcast   => [skipRomByte]
  | .addressed a => matchRomByte :: addrBytes a

theorem buildFrame_eq_preamble (t : Target) (cmd : Byte) : buildFrame t cmd = t.preamble ++ [cmd] := by
  cases t <;> rfl

theorem buildFrame_length (t : Target) (cmd : Byte) : (buildFrame t cmd).length = t.preamble.length + 1 := by
  rw [buildFrame_eq_preamble, List.length_append, List.length_singleton]

/-- Before its command byte a frame addresses its target. -/
theorem openFrame_takeBytes_preamble (u : BusSide) (t : Target) :
    u.openFrame.takeBytes t.preamble = { u with pos := .functionCommand, selection := t.selection } := by
  cases t with
  | broadcast   => rfl
  | addressed a => exact matchRom_takeBytes_addrBytes u.openFrame a

/-- No part of a frame before its command byte changes a device. -/
theorem openFrame_takeBytes_take_preamble_devices (u : BusSide) (t : Target) (k : Nat) :
    (u.openFrame.takeBytes (t.preamble.take k)).devices = u.devices := by
  rcases Nat.lt_or_ge k t.preamble.length with hk | hk
  · cases t with
    | broadcast =>
      obtain rfl : k = 0 := Nat.lt_one_iff.mp hk
      rfl
    | addressed a =>
      cases k with
      | zero => rfl
      | succ k =>
        have hk8 : k < 8 := Nat.lt_of_succ_lt_succ hk
        have htake : u.openFrame.matchRom.takeBytes ((addrBytes a).take k) =
            { u.openFrame.matchRom with pos := .address ((addrBytes a).take k) } :=
          takeBytes_address (got := []) rfl (by simp [hk8])
        have hdevices := congrArg BusSide.devices htake
        exact hdevices
  · rw [List.take_of_length_le hk, openFrame_takeBytes_preamble]

/-- A frame that was sent in part has changed no device, or all of it was sent. -/
theorem openFrame_takeBytes_take_cases (u : BusSide) (t : Target) (cmd : Byte) (k : Nat) :
    (u.openFrame.takeBytes ((buildFrame t cmd).take k)).devices = u.devices ∨
    ((buildFrame t cmd).length ≤ k ∧ (buildFrame t cmd).take k = buildFrame t cmd) := by
  rcases Nat.lt_or_ge k (buildFrame t cmd).length with hk | hk
  · have hpart : (buildFrame t cmd).take k = t.preamble.take k := by
      rw [buildFrame_eq_preamble, List.take_append_of_le_length (by rw [buildFrame_length] at hk; omega)]
    exact .inl (hpart ▸ openFrame_takeBytes_take_preamble_devices u t k)
  · exact .inr ⟨hk, List.take_of_length_le hk⟩

section
variable (u : BusSide) (t : Target)

/-- A whole frame is its command, with its target addressed. -/
theorem openFrame_takeBytes_buildFrame (cmd : Byte) : u.openFrame.takeBytes (buildFrame t cmd) =
    BusSide.takeByte { u with pos := .functionCommand, selection := t.selection } cmd := by
  rw [buildFrame_eq_preamble, BusSide.takeBytes_append, openFrame_takeBytes_preamble]
  rfl

theorem openFrame_takeBytes_convertT : u.openFrame.takeBytes (buildFrame t convertTByte) =
    BusSide.convertT { u with selection := t.selection } :=
  openFrame_takeBytes_buildFrame u t convertTByte

theorem openFrame_takeBytes_writeScratchpad : u.openFrame.takeBytes (buildFrame t writeScratchpadByte) =
    { u with pos := .th, selection := t.selection } :=
  openFrame_takeBytes_buildFrame u t writeScratchpadByte

theorem openFrame_takeBytes_readScratchpad : u.openFrame.takeBytes (buildFrame t readScratchpadByte) =
    { u with pos := .supplying, selection := t.selection } :=
  openFrame_takeBytes_buildFrame u t readScratchpadByte

/-- However much of it is sent, a frame whose command is not CONVERT_T changes no device. -/
theorem openFrame_takeBytes_take_devices {cmd : Byte} (hcmd : cmd = writeScratchpadByte ∨ cmd = readScratchpadByte)
    (k : Nat) : (u.openFrame.takeBytes ((buildFrame t cmd).take k)).devices = u.devices := by
  rcases openFrame_takeBytes_take_cases u t cmd k with h | ⟨_, h⟩
  · exact h
  · rw [h]
    rcases hcmd with rfl | rfl
    · rw [openFrame_takeBytes_writeScratchpad]
    · rw [openFrame_takeBytes_readScratchpad]

end

theorem selection_covers_iff (a : ReqArgs) (d : Device) :
    (targetOf a).selection.covers d = true ↔ a.addrValid = false ∨ d.addr = a.addr := by
  cases h : a.addrValid with
  | true  => rw [targetOf_of_addrValid h]; simp [Target.selection, Selection.covers]
  | false => rw [targetOf_of_not_addrValid h]; simp [Target.selection, Selection.covers]

/-- A whole payload is the configuration of the addressed devices (R184). -/
theorem takeBytes_payload {u : BusSide} (h : u.pos = .th) (p : Payload) :
    u.takeBytes p.bytes = u.configure p.th p.tl p.configuration := by
  simp [Payload.bytes, BusSide.takeByte, BusSide.takeConfiguration, BusSide.configure, BusSide.onSelected, h]

/-! ### The wire commands and the written configuration bytes as instructions -/

/-- Settles O40: each command's execution is the update of the device side its rule states. -/
theorem wireCommandsRun : Obligations.WireCommandsRun := fun _ => ⟨rfl, rfl, rfl, rfl, rfl⟩

theorem takeConfiguration_of_configuration {u : BusSide} {th tl : Byte} (h : u.pos = .configuration th tl) (cfg : Byte) :
    u.takeConfiguration cfg = u.configure th tl cfg := by
  simp [BusSide.takeConfiguration, h]

theorem takeConfiguration_of_not_configuration {u : BusSide} (h : ∀ th tl, u.pos ≠ .configuration th tl) (cfg : Byte) :
    u.takeConfiguration cfg =
      { u.onSelected (fun d => d.configure d.registers.th d.registers.tl cfg) with pos := .closed } := by
  unfold BusSide.takeConfiguration
  split
  · next th tl hp => exact absurd hp (h th tl)
  · rfl

/-- Settles O41: each row has the devices take the byte PACK_CFG gives for its code. -/
theorem writtenConfigurationsRun : Obligations.WrittenConfigurationsRun := by
  intro s i cfg h
  have hexec : exec i s = .next (s.withBus (s.bus.takeConfiguration cfg)) := by
    rcases h with ⟨rfl, rfl⟩ | ⟨rfl, rfl⟩ | ⟨rfl, rfl⟩ | ⟨rfl, rfl⟩ <;> rfl
  rw [hexec]
  refine ⟨fun th tl hp => ?_, fun hp => ?_⟩
  · rw [takeConfiguration_of_configuration hp]
    rfl
  · rw [takeConfiguration_of_not_configuration hp]
    rfl

end Sys2Proof.Machine
end

section
/-! What the operations do to the devices (R130, R185, R52, R249): from a device that is present, by the answers to the writes. -/

namespace Sys2Proof.Machine

variable {E : Type}

/-! ### An operation by its answers -/

section
variable {op : BitVec 3} {cmd : Byte} (hc : commandOf op = some cmd) (a : ReqArgs) {s : State E}
  {rs : List (ResetAnswer E)} {ws : List (WriteAnswer E)} (hr : s.transport.resets = .present :: rs)
include hc hr

theorem began_proceed_of_frame_err {e : E} (hw : s.transport.writes = .err e :: ws) :
    (s.began op a).proceed =
      ((s.wroteFrame op a cmd rs (.err e) ws).sendPart (buildFrame (targetOf a) cmd)).endTransport e := by
  rcases began_proceed_cases hc a s with
    ⟨h, _⟩ | ⟨_, h, _⟩ | ⟨_, _, h, _⟩ | ⟨_, _, h, _⟩ | ⟨rs', e', ws', hr', hw', ht⟩ | ⟨_, _, _, h, _⟩
  case inr.inr.inr.inr.inl =>
    obtain ⟨-, rfl⟩ := List.cons.inj (hr.symm.trans hr')
    obtain ⟨he, rfl⟩ := List.cons.inj (hw.symm.trans hw')
    obtain rfl := WriteAnswer.err.inj he
    exact ht
  all_goals simp [hr, hw] at h

theorem began_proceed_of_frame_ok (hw : s.transport.writes = .ok :: ws) :
    (s.began op a).proceed =
      (((s.wroteFrame op a cmd rs .ok ws).sendAll (buildFrame (targetOf a) cmd)).afterFrame).advances 2 := by
  rcases began_proceed_cases hc a s with
    ⟨h, _⟩ | ⟨_, h, _⟩ | ⟨_, _, h, _⟩ | ⟨_, _, h, _⟩ | ⟨_, _, _, _, h, _⟩ | ⟨rs', ws', hr', hw', ht⟩
  case inr.inr.inr.inr.inr =>
    obtain ⟨-, rfl⟩ := List.cons.inj (hr.symm.trans hr')
    obtain ⟨-, rfl⟩ := List.cons.inj (hw.symm.trans hw')
    exact ht
  all_goals simp [hr, hw] at h

end

/-! ### Instructions in IDLE that pass their check 2 (R208) -/

section
variable {s : State} (hp : s.phase = .idle) {a : ReqArgs} (hbus : a.busValid = true)
include hp hbus

theorem exec_trigger_of_valid : exec (.trigger a) s = .next (s.began 1 a).proceed := by
  rw [exec_trigger_of_idle hp, hbus, State.start_true_latch]

theorem exec_readTemp_of_valid (hout : a.outValid = true) : exec (.readTemp a) s = .next (s.began 2 a).proceed := by
  rw [exec_readTemp_of_idle hp, hbus, hout, Bool.and_self, State.start_true_latch]

theorem exec_setRes_of_valid : exec (.setRes a) s = .next (s.began 3 a).proceed := by
  rw [exec_setRes_of_idle hp, hbus, State.start_true_latch]

end

/-! ### TRIGGER -/

theorem trigger_proceed_of_ok (a : ReqArgs) {s : State E} {rs : List (ResetAnswer E)} {ws : List (WriteAnswer E)}
    (hr : s.transport.resets = .present :: rs) (hw : s.transport.writes = .ok :: ws) :
    (s.began 1 a).proceed.status = .ok ∧
      (s.began 1 a).proceed.bus = BusSide.convertT { s.bus with selection := (targetOf a).selection } := by
  rw [began_proceed_of_frame_ok (rfl : commandOf 1 = some convertTByte) a hr hw, trigger_afterFrame_advances]
  exact ⟨rfl, openFrame_takeBytes_convertT s.bus (targetOf a)⟩

/-- Settles O43: the written frame is a CONVERT_T with the target addressed. -/
theorem triggerStartsConversions : Obligations.TriggerStartsConversions := by
  intro a s rs ws hp hbus hr hw
  obtain ⟨hok, hdev⟩ := trigger_proceed_of_ok a hr hw
  refine ⟨_, exec_trigger_of_valid hp hbus, hok, by rw [hdev, BusSide.convertT_devices, List.length_map],
    fun k d d' hd hd' => ?_⟩
  rw [hdev, BusSide.convertT_devices, List.getElem?_map, hd, Option.map_some, Option.some.injEq] at hd'
  subst hd'
  refine ⟨fun ⟨hv, hne⟩ => ?_, fun haddr => ?_⟩
  · have uncovered : ¬ (targetOf a).selection.covers d = true := by simp [selection_covers_iff, hv, hne]
    exact if_neg uncovered
  · rw [if_pos ((selection_covers_iff a d).mpr haddr)]
    exact ⟨rfl, rfl, _, _, rfl⟩

/-! ### SET_RES -/

/-- With its frame written, SET_RES has its target addressed and its payload comes next, no device having changed. -/
theorem configuring_bus (a : ReqArgs) (rs : List (ResetAnswer E)) (ws : List (WriteAnswer E)) (s : State E) :
    (s.configuring a rs ws).bus = { s.bus with pos := .th, selection := (targetOf a).selection } :=
  openFrame_takeBytes_writeScratchpad s.bus (targetOf a)

section
variable (a : ReqArgs) {s : State E} {rs : List (ResetAnswer E)} {vs : List (WriteAnswer E)}
  (hr : s.transport.resets = .present :: rs)
include hr

theorem setRes_proceed_of_ok (hw : s.transport.writes = .ok :: .ok :: vs) :
    (s.began 3 a).proceed = (((s.configuring a rs (.ok :: vs)).didWrite (packPayload a.res).bytes .ok vs).sendAll
      (packPayload a.res).bytes).endWith .ok := by
  rw [began_proceed_of_frame_ok (rfl : commandOf 3 = some writeScratchpadByte) a hr hw, setRes_afterFrame_advances,
    stepSendPayload_of_ok rfl, State.configuring_payload]

theorem setRes_proceed_of_err {e : E} (hw : s.transport.writes = .ok :: .err e :: vs) :
    (s.began 3 a).proceed = (((s.configuring a rs (.err e :: vs)).didWrite (packPayload a.res).bytes (.err e)
      vs).losePayload).endTransport e := by
  rw [began_proceed_of_frame_ok (rfl : commandOf 3 = some writeScratchpadByte) a hr hw, setRes_afterFrame_advances,
    stepSendPayload_of_err rfl, State.configuring_payload]

end

/-- Settles O44: the written payload configures the devices that the written frame addresses. -/
theorem setResConfiguresDevices : Obligations.SetResConfiguresDevices := by
  intro a s rs ws hp hbus hr hw
  refine ⟨_, exec_setRes_of_valid hp hbus, by rw [setRes_proceed_of_ok a hr hw, State.endWith_status], ?_⟩
  rw [setRes_proceed_of_ok a hr hw]
  simp only [State.endWith_bus, State.sendAll_bus, State.didWrite_bus, configuring_bus]
  rw [takeBytes_payload rfl, BusSide.configure_devices]
  refine List.map_congr_left fun d _ => ?_
  simp only [selection_covers_iff]
  rfl

/-! ### A write that fails -/

theorem began_proceed_bus_of_frame_err {op : BitVec 3} {cmd : Byte} (hc : commandOf op = some cmd) (a : ReqArgs)
    {s : State E} {rs : List (ResetAnswer E)} {ws : List (WriteAnswer E)} {e : E}
    (hr : s.transport.resets = .present :: rs) (hw : s.transport.writes = .err e :: ws) :
    (s.began op a).proceed.status = .transport ∧ (s.began op a).proceed.bus =
      s.bus.openFrame.takeBytes ((buildFrame (targetOf a) cmd).take (Config.sentLen s.draws)) := by
  rw [began_proceed_of_frame_err hc a hr hw]
  exact ⟨rfl, rfl⟩

/-- Settles O45: the devices have the part of the frame that was sent, which changes one only with the last byte of a CONVERT_T. -/
theorem failedFrameMayBeSentInPart : Obligations.FailedFrameMayBeSentInPart := by
  intro a s rs ws e hp hbus hr hw
  refine ⟨?_, fun hout => ?_, ?_⟩
  · obtain ⟨hstatus, hdev⟩ := began_proceed_bus_of_frame_err (rfl : commandOf 1 = some convertTByte) a hr hw
    refine ⟨_, _, exec_trigger_of_valid hp hbus, hstatus, hdev, fun hne => ?_⟩
    rcases openFrame_takeBytes_take_cases s.bus (targetOf a) convertTByte (Config.sentLen s.draws) with h | ⟨h, _⟩
    · exact absurd (hdev ▸ h) hne
    · exact h
  · obtain ⟨hstatus, hdev⟩ := began_proceed_bus_of_frame_err (rfl : commandOf 2 = some readScratchpadByte) a hr hw
    exact ⟨_, _, exec_readTemp_of_valid hp hbus hout, hstatus, hdev,
      hdev ▸ openFrame_takeBytes_take_devices s.bus (targetOf a) (.inr rfl) _⟩
  · obtain ⟨hstatus, hdev⟩ := began_proceed_bus_of_frame_err (rfl : commandOf 3 = some writeScratchpadByte) a hr hw
    exact ⟨_, _, exec_setRes_of_valid hp hbus, hstatus, hdev,
      hdev ▸ openFrame_takeBytes_take_devices s.bus (targetOf a) (.inl rfl) _⟩

/-- Settles O46: the payload reaches the devices that the frame addressed, in some first part, and leaves them as R249 says. -/
theorem failedPayloadReachesOnlyTheAddressed : Obligations.FailedPayloadReachesOnlyTheAddressed := by
  intro a s rs ws e hp hbus hr hw
  have ht := setRes_proceed_of_err a hr hw
  refine ⟨_, exec_setRes_of_valid hp hbus, by rw [ht, State.endTransport_status], by rw [ht, State.endTransport_xerr], ?_⟩
  have hdev : (s.began 3 a).proceed.bus = (BusSide.takeBytes ((packPayload a.res).bytes.take (Config.sentLen s.draws))
      { s.bus with pos := .th, selection := (targetOf a).selection }).losePayload s.draws := by
    rw [ht, State.endTransport_bus, State.losePayload_bus, State.didWrite_payload, State.configuring_payload,
      State.didWrite_bus, configuring_bus]
    rfl
  rw [hdev]
  refine ⟨?position, ?devices⟩
  case position =>
    rw [BusSide.losePayload_pos]
    rcases BusSide.takePayload_cases (u := { s.bus with pos := .th, selection := (targetOf a).selection }) rfl
      (packPayload a.res) (Config.sentLen s.draws) with h | h | h | h <;> rw [h]
    · exact .inl rfl
    · exact .inr (.inl rfl)
    · exact .inr (.inr (.inl rfl))
    · exact .inr (.inr (.inr rfl))
  case devices =>
    obtain ⟨_, hlength, hlost⟩ := payloadPrefix_lost (u := { s.bus with pos := .th, selection := (targetOf a).selection })
      rfl (packPayload a.res) (Config.sentLen s.draws) s.draws
    refine ⟨hlength, fun k d d' hd hd' => ?_⟩
    obtain ⟨haddr, hconv, huncovered, hregisters⟩ := hlost k d d' hd hd'
    refine ⟨haddr, hconv, fun hv hne => huncovered ?_, hregisters⟩
    rw [← Bool.not_eq_true, selection_covers_iff]
    simp [hv, hne]

/-! ### What only SET_RES writes (R35, R37) -/

/-- What a conversion leaves of a device (R131): its address, its thresholds and its configuration. -/
def Device.settings (d : Device) : Addr × Byte × Byte × Byte :=
  (d.addr, d.registers.th, d.registers.tl, d.registers.configuration)

theorem convertT_settings (u : BusSide) : u.convertT.devices.map Device.settings = u.devices.map Device.settings := by
  rw [BusSide.convertT_devices, List.map_map]
  refine List.map_congr_left fun d _ => ?_
  simp only [Function.comp]
  split <;> rfl

theorem openFrame_takeBytes_take_settings (u : BusSide) (t : Target) (k : Nat) :
    (u.openFrame.takeBytes ((buildFrame t convertTByte).take k)).devices.map Device.settings =
      u.devices.map Device.settings := by
  rcases openFrame_takeBytes_take_cases u t convertTByte k with h | ⟨_, h⟩
  · rw [h]
  · rw [h, openFrame_takeBytes_convertT, convertT_settings]

theorem trigger_start_settings (a : ReqArgs) (valid : Bool) (s : State E) :
    ((s.latch (reqWord 1 a)).start valid).bus.devices.map Device.settings = s.bus.devices.map Device.settings := by
  cases valid
  case false => rfl
  case true =>
    rw [State.start_true_latch]
    rcases began_proceed_cases (rfl : commandOf 1 = some convertTByte) a s with
      ⟨_, ht⟩ | ⟨_, _, ht⟩ | ⟨_, _, _, ht⟩ | ⟨_, _, _, ht⟩ | ⟨_, _, _, _, _, ht⟩ | ⟨rs, ws, _, _, ht⟩ <;> rw [ht]
    case inr.inr.inr.inr.inl => exact openFrame_takeBytes_take_settings s.bus (targetOf a) _
    case inr.inr.inr.inr.inr =>
      have sent : ((s.wroteFrame 1 a convertTByte rs .ok ws).sendAll (buildFrame (targetOf a) convertTByte)).bus =
          BusSide.convertT { s.bus with selection := (targetOf a).selection } :=
        openFrame_takeBytes_convertT s.bus (targetOf a)
      rw [trigger_afterFrame_advances, State.endWith_bus, sent, convertT_settings]
    all_goals rfl

@[simp] theorem endDecode_bus (d : Decoded) (s : State E) : (s.endDecode d).bus = s.bus := by cases d <;> rfl

theorem reading_bus (a : ReqArgs) (rs : List (ResetAnswer E)) (ws : List (WriteAnswer E)) (s : State E) :
    (s.reading a rs ws).bus = { s.bus with pos := .supplying, selection := (targetOf a).selection } :=
  openFrame_takeBytes_readScratchpad s.bus (targetOf a)

theorem reading_devices (a : ReqArgs) (rs : List (ResetAnswer E)) (ws : List (WriteAnswer E)) (s : State E) :
    (s.reading a rs ws).bus.devices = s.bus.devices := by
  rw [reading_bus]

theorem readTemp_start_devices (a : ReqArgs) (valid : Bool) (s : State E) :
    ((s.latch (reqWord 2 a)).start valid).bus.devices = s.bus.devices := by
  cases valid
  case false => rfl
  case true =>
    rw [State.start_true_latch]
    rcases began_proceed_cases (rfl : commandOf 2 = some readScratchpadByte) a s with
      ⟨_, ht⟩ | ⟨_, _, ht⟩ | ⟨_, _, _, ht⟩ | ⟨_, _, _, ht⟩ | ⟨_, _, _, _, _, ht⟩ | ⟨rs, ws, _, _, ht⟩ <;> rw [ht]
    case inr.inr.inr.inr.inl => exact openFrame_takeBytes_take_devices s.bus (targetOf a) (.inr rfl) _
    case inr.inr.inr.inr.inr =>
      rw [readTemp_afterFrame_advances]
      rcases reading_advances_cases a rs ws s with ⟨_, hu⟩ | ⟨_, _, _, hu⟩ | ⟨sp, _, _, hu⟩ <;> rw [hu]
      case inr.inr => rw [endDecode_bus]; exact reading_devices a rs ws s
      all_goals exact reading_devices a rs ws s
    all_goals rfl

/-- A reserved request ends with ILLEGAL_OP, and has no transaction (R83). -/
theorem reserved_end {a : ReqArgs} {s t : State} (hp : s.phase = .idle)
    (h : exec (.reservedOp0 a) s = .next t ∨ exec (.reservedOp4 a) s = .next t ∨ exec (.reservedOp5 a) s = .next t ∨
      exec (.reservedOp6 a) s = .next t ∨ exec (.reservedOp7 a) s = .next t) :
    t.status = .illegalOp ∧ t.bus = s.bus := by
  obtain ⟨h0, h4, h5, h6, h7⟩ := reservedRequestsEndAtOnce a s hp
  rcases h with h | h | h | h | h
  · exact Host.Outcome.next.inj (h0.symm.trans h) ▸ ⟨rfl, rfl⟩
  · exact Host.Outcome.next.inj (h4.symm.trans h) ▸ ⟨rfl, rfl⟩
  · exact Host.Outcome.next.inj (h5.symm.trans h) ▸ ⟨rfl, rfl⟩
  · exact Host.Outcome.next.inj (h6.symm.trans h) ▸ ⟨rfl, rfl⟩
  · exact Host.Outcome.next.inj (h7.symm.trans h) ▸ ⟨rfl, rfl⟩

/-- Settles O47: a frame changes devices by its CONVERT_T alone, which leaves their settings; the reserved requests send
none. -/
theorem onlySetResWritesDeviceRegisters : Obligations.OnlySetResWritesDeviceRegisters := by
  refine fun a s t hp => ⟨fun h => ?_, fun h => ?_⟩
  · rcases h with h | h
    · obtain rfl := Host.Outcome.next.inj ((exec_readTemp_of_idle hp a).symm.trans h)
      exact readTemp_start_devices a _ s
    · rw [(reserved_end hp h).2]
  · obtain rfl := Host.Outcome.next.inj ((exec_trigger_of_idle hp a).symm.trans h)
    exact trigger_start_settings a a.busValid s

end Sys2Proof.Machine
end

section
/-! What an operation leaves in the registers and ports (R64, R211): the buffers it wrote, what it left unchanged, and the answers
it used up. -/

namespace Sys2Proof.Machine

variable {E : Type}

/-! ### The buffers (log 2) -/

/-- The block holds the frame `f`, and will not build another one before the operation ends. -/
def State.HoldsFrame (f : List Byte) (t : State E) : Prop := t.phase ≠ .reset ∧ t.frame = f ∧ t.frameLen = f.length

theorem HoldsFrame.afterFrame {f : List Byte} {s : State E} (h : s.frame = f ∧ s.frameLen = f.length) :
    s.afterFrame.HoldsFrame f := by
  rcases afterFrame_cases s with ⟨_, ht⟩ | ⟨_, ht⟩ | ⟨_, ht⟩ | ⟨_, ht⟩ <;> rw [ht] <;> exact ⟨by simp, h⟩

theorem advance_holdsFrame {f : List Byte} {s : State E} (h : s.HoldsFrame f) : s.advance.HoldsFrame f := by
  obtain ⟨hreset, hframe⟩ := h
  rcases phase_cases s.phase with hp | hp | hp | hp | hp | hp
  · rw [advance_idle hp]
    exact ⟨hreset, hframe⟩
  · rw [advance_decode hp, State.stepDecode]
    rcases endDecode_cases (decodeRecord s.sp) s with ⟨_, _, ht⟩ | ⟨_, ht⟩ | ⟨_, ht⟩ <;> rw [ht] <;>
      exact ⟨by simp, hframe⟩
  · exact absurd hp hreset
  · rw [advance_sendFrame hp]
    rcases stepSendFrame_cases s with ⟨_, ht⟩ | ⟨_, _, ht⟩ | ⟨_, _, _, ht⟩ <;> rw [ht]
    · exact ⟨hreset, hframe⟩
    · exact HoldsFrame.afterFrame hframe
    · exact ⟨by simp, hframe⟩
  · rw [advance_sendPayload hp]
    rcases stepSendPayload_cases s with ⟨_, ht⟩ | ⟨_, _, ht⟩ | ⟨_, _, _, ht⟩ <;> rw [ht]
    · exact ⟨hreset, hframe⟩
    · exact ⟨by simp, hframe⟩
    · exact ⟨by simp, hframe⟩
  · rw [advance_readSp hp]
    rcases stepReadSp_cases s with ⟨_, ht⟩ | ⟨_, _, _, ht⟩ | ⟨_, _, _, ht⟩ <;> rw [ht]
    · exact ⟨hreset, hframe⟩
    · exact ⟨by simp, hframe⟩
    · exact ⟨by simp, hframe⟩

/-- Once a device is present, an operation holds its frame, wherever it waits or ends. -/
theorem began_proceed_frame {op : BitVec 3} {cmd : Byte} (hc : commandOf op = some cmd) (a : ReqArgs) {s : State E}
    {rs : List (ResetAnswer E)} (hr : s.transport.resets = .present :: rs) :
    (s.began op a).proceed.frame = buildFrame (targetOf a) cmd ∧
      (s.began op a).proceed.frameLen = (buildFrame (targetOf a) cmd).length := by
  have framed : (s.framed op a cmd rs).HoldsFrame (buildFrame (targetOf a) cmd) :=
    ⟨by simp, s.framed_frame op a cmd rs, s.framed_frameLen op a cmd rs⟩
  rw [← advance_proceed, began_advance_of_present hc a hr]
  exact (proceed_induction (P := State.HoldsFrame _) (fun _ => advance_holdsFrame) framed).2

@[simp] theorem endDecode_sp (d : Decoded) (s : State E) : (s.endDecode d).sp = s.sp := by cases d <;> rfl

theorem readTemp_proceed_sp (a : ReqArgs) {s : State E} {rs : List (ResetAnswer E)} {ws : List (WriteAnswer E)}
    {sp : Scratchpad} {ds : List (ReadAnswer E)} (hr : s.transport.resets = .present :: rs)
    (hw : s.transport.writes = .ok :: ws) (hd : s.transport.reads = .bytes sp :: ds) :
    (s.began 2 a).proceed.sp = sp := by
  rw [began_proceed_of_frame_ok (rfl : commandOf 2 = some readScratchpadByte) a hr hw, readTemp_afterFrame_advances]
  rcases reading_advances_cases a rs ws s with ⟨h, _⟩ | ⟨_, _, h, _⟩ | ⟨sp', ds', h, hu⟩
  · simp [hd] at h
  · simp [hd] at h
  · rw [hu, endDecode_sp, State.loadRecord_sp]
    exact (ReadAnswer.bytes.inj (List.cons.inj (hd.symm.trans h)).1).symm

theorem setRes_proceed_payload (a : ReqArgs) {s : State E} {rs : List (ResetAnswer E)} {ws : List (WriteAnswer E)}
    (hr : s.transport.resets = .present :: rs) (hw : s.transport.writes = .ok :: ws) :
    (s.began 3 a).proceed.payload = packPayload a.res := by
  have kept := s.configuring_payload a rs ws
  rw [began_proceed_of_frame_ok (rfl : commandOf 3 = some writeScratchpadByte) a hr hw, setRes_afterFrame_advances]
  rcases configuring_stepSendPayload_cases a rs ws s with ⟨_, hu⟩ | ⟨_, _, _, hu⟩ | ⟨_, _, hu⟩ <;> rw [hu] <;> exact kept

/-- Settles O23: the frame is that of the operation's own command; the record read and the payload loaded stay. -/
theorem buffersAfterAnOperation : Obligations.BuffersAfterAnOperation := by
  intro a s rs hp hbus hr
  refine ⟨?_, fun hout => ?_, ?_⟩
  · obtain ⟨hframe, hlen⟩ := began_proceed_frame (rfl : commandOf 1 = some convertTByte) a hr
    exact ⟨_, exec_trigger_of_valid hp hbus, hframe, hlen⟩
  · obtain ⟨hframe, hlen⟩ := began_proceed_frame (rfl : commandOf 2 = some readScratchpadByte) a hr
    exact ⟨_, exec_readTemp_of_valid hp hbus hout, hframe, hlen, fun ws sp ds => readTemp_proceed_sp a hr⟩
  · obtain ⟨hframe, hlen⟩ := began_proceed_frame (rfl : commandOf 3 = some writeScratchpadByte) a hr
    exact ⟨_, exec_setRes_of_valid hp hbus, hframe, hlen, fun ws => setRes_proceed_payload a hr⟩

/-! ### What stays, and the answers used up (R64) -/

section
variable {op : BitVec 3} {cmd : Byte} (hc : commandOf op = some cmd) (a : ReqArgs) (valid : Bool) (s : State E)
include hc

/-- Until a device is present, no buffer, no device and no temperature changes (log 12). -/
theorem start_keeps_of_not_present (hpresent : ¬ s.transport.resets.head? = some .present) :
    let t := (s.latch (reqWord op a)).start valid
    t.frame = s.frame ∧ t.frameLen = s.frameLen ∧ t.payload = s.payload ∧ t.sp = s.sp ∧ t.bus = s.bus ∧
      t.draws = s.draws ∧ t.tempQ4 = s.tempQ4 := by
  cases valid
  case false => exact ⟨rfl, rfl, rfl, rfl, rfl, rfl, rfl⟩
  case true =>
    rw [State.start_true_latch]
    rcases began_proceed_cases hc a s with
      ⟨_, ht⟩ | ⟨_, _, ht⟩ | ⟨_, _, _, ht⟩ | ⟨_, hr, _⟩ | ⟨_, _, _, hr, _⟩ | ⟨_, _, hr, _⟩
    case inr.inr.inr.inl => simp [hr] at hpresent
    case inr.inr.inr.inr.inl => simp [hr] at hpresent
    case inr.inr.inr.inr.inr => simp [hr] at hpresent
    all_goals rw [ht]; exact ⟨rfl, rfl, rfl, rfl, rfl, rfl, rfl⟩

/-- Until the frame is written, PAYLOAD, SP and TEMP_Q4 stay. -/
theorem start_keeps_of_not_sent (hsent : ¬ s.transport.writes.head? = some .ok) :
    let t := (s.latch (reqWord op a)).start valid
    t.payload = s.payload ∧ t.sp = s.sp ∧ t.tempQ4 = s.tempQ4 := by
  cases valid
  case false => exact ⟨rfl, rfl, rfl⟩
  case true =>
    rw [State.start_true_latch]
    rcases began_proceed_cases hc a s with
      ⟨_, ht⟩ | ⟨_, _, ht⟩ | ⟨_, _, _, ht⟩ | ⟨_, _, _, ht⟩ | ⟨_, _, _, _, _, ht⟩ | ⟨_, _, _, hw, _⟩
    case inr.inr.inr.inr.inr => simp [hw] at hsent
    all_goals rw [ht]; exact ⟨rfl, rfl, rfl⟩

theorem began_proceed_transport_of_not_present (hpresent : ¬ s.transport.resets.head? = some .present) :
    (s.began op a).proceed.transport = { s.transport with resets := s.transport.resets.tail } := by
  rcases began_proceed_cases hc a s with
    ⟨hr, ht⟩ | ⟨_, hr, ht⟩ | ⟨_, _, hr, ht⟩ | ⟨_, hr, _⟩ | ⟨_, _, _, hr, _⟩ | ⟨_, _, hr, _⟩
  · rw [ht, hr, List.tail_nil, ← hr]
    rfl
  · rw [ht, hr]
    rfl
  · rw [ht, hr]
    rfl
  all_goals simp [hr] at hpresent

theorem began_proceed_transport_of_not_sent (hpresent : s.transport.resets.head? = some .present)
    (hsent : ¬ s.transport.writes.head? = some .ok) :
    (s.began op a).proceed.transport =
      { s.transport with resets := s.transport.resets.tail, writes := s.transport.writes.tail } := by
  rcases began_proceed_cases hc a s with
    ⟨hr, _⟩ | ⟨_, hr, _⟩ | ⟨_, _, hr, _⟩ | ⟨_, hr, hw, ht⟩ | ⟨_, _, _, hr, hw, ht⟩ | ⟨_, _, _, hw, _⟩
  case inr.inr.inr.inl =>
    rw [ht, hr, hw, List.tail_nil, ← hw]
    rfl
  case inr.inr.inr.inr.inl =>
    rw [ht, hr, hw]
    rfl
  case inr.inr.inr.inr.inr => simp [hw] at hsent
  all_goals simp [hr] at hpresent

end

@[simp] theorem endDecode_transport (d : Decoded) (s : State E) : (s.endDecode d).transport = s.transport := by
  cases d <;> rfl

/-- TRIGGER has one write, whatever it is answered. -/
theorem trigger_proceed_transport (a : ReqArgs) {s : State E} (hpresent : s.transport.resets.head? = some .present) :
    (s.began 1 a).proceed.transport =
      { s.transport with resets := s.transport.resets.tail, writes := s.transport.writes.tail } := by
  by_cases hsent : s.transport.writes.head? = some .ok
  · obtain ⟨rs, hr⟩ := List.head?_eq_some_iff.mp hpresent
    obtain ⟨ws, hw⟩ := List.head?_eq_some_iff.mp hsent
    rw [began_proceed_of_frame_ok (rfl : commandOf 1 = some convertTByte) a hr hw, trigger_afterFrame_advances, hr, hw]
    rfl
  · exact began_proceed_transport_of_not_sent (rfl : commandOf 1 = some convertTByte) a s hpresent hsent

section
variable (a : ReqArgs) {s : State E} (hpresent : s.transport.resets.head? = some .present)
  (hsent : s.transport.writes.head? = some .ok)
include hpresent hsent

theorem readTemp_proceed_transport : (s.began 2 a).proceed.transport =
    ⟨s.transport.resets.tail, s.transport.writes.tail, s.transport.reads.tail⟩ := by
  obtain ⟨rs, hr⟩ := List.head?_eq_some_iff.mp hpresent
  obtain ⟨ws, hw⟩ := List.head?_eq_some_iff.mp hsent
  rw [began_proceed_of_frame_ok (rfl : commandOf 2 = some readScratchpadByte) a hr hw, readTemp_afterFrame_advances,
    hr, hw]
  rcases reading_advances_cases a rs ws s with ⟨hd, hu⟩ | ⟨_, _, hd, hu⟩ | ⟨sp, _, hd, hu⟩ <;> rw [hu, hd]
  · rw [List.tail_nil, ← hd]
    rfl
  · rfl
  · rw [endDecode_transport]
    rfl

theorem setRes_proceed_transport : (s.began 3 a).proceed.transport =
    { s.transport with resets := s.transport.resets.tail, writes := s.transport.writes.tail.tail } := by
  obtain ⟨rs, hr⟩ := List.head?_eq_some_iff.mp hpresent
  obtain ⟨ws, hw⟩ := List.head?_eq_some_iff.mp hsent
  rw [began_proceed_of_frame_ok (rfl : commandOf 3 = some writeScratchpadByte) a hr hw, setRes_afterFrame_advances,
    hr, hw]
  rcases configuring_stepSendPayload_cases a rs ws s with ⟨rfl, hu⟩ | ⟨_, _, rfl, hu⟩ | ⟨_, rfl, hu⟩ <;> rw [hu] <;> rfl

end

/-- Settles O26: check 2 ends on the latched word; a valid operation keeps what the lemmas above say, and each transaction
takes the first answer of its kind. -/
theorem operationFrame : Obligations.OperationFrame := by
  intro a s t hp present sent invalid
  have ends (op : BitVec 3) : (s.latch (reqWord op a)).start false = invalid op := by
    rw [State.start, State.endWith, State.latch, ← hp]
    rfl
  refine ⟨fun h => ?kept, fun h => ?trigger, fun h => ?readTemp, fun h => ?setRes⟩
  case kept =>
    obtain ⟨i, hi, h⟩ : ∃ i, (i = .trigger a ∨ i = .readTemp a ∨ i = .setRes a) ∧ exec i s = .next t := by
      rcases h with h | h | h <;> exact ⟨_, by simp, h⟩
    obtain ⟨op, cmd, valid, hc, hexec⟩ := exec_operation_of_idle hi
    obtain rfl := Host.Outcome.next.inj ((hexec s hp).symm.trans h)
    have latched : KeepsPorts s (s.latch (reqWord op a)) := ⟨rfl, rfl, rfl, rfl⟩
    obtain ⟨hrequests, hreset, hline, haddr⟩ := latched.trans (start_keepsPorts valid _)
    exact ⟨hrequests, hreset, hline, haddr, start_keeps_of_not_present hc a valid s,
      start_keeps_of_not_sent hc a valid s⟩
  case trigger =>
    obtain rfl := Host.Outcome.next.inj ((exec_trigger_of_idle hp a).symm.trans h)
    refine ⟨fun hv => hv ▸ ends 1, fun hv => ?_⟩
    rw [hv, State.start_true_latch]
    by_cases hpresent : present
    · rw [trigger_proceed_transport a hpresent]
      exact ⟨rfl, rfl, absurd hpresent, fun _ => rfl⟩
    · rw [began_proceed_transport_of_not_present (rfl : commandOf 1 = some convertTByte) a s hpresent]
      exact ⟨rfl, rfl, fun _ => rfl, fun h => absurd h hpresent⟩
  case readTemp =>
    obtain rfl := Host.Outcome.next.inj ((exec_readTemp_of_idle hp a).symm.trans h)
    refine ⟨fun hv => ?_, fun hbus hout => ?_⟩
    · have hvalid : (a.busValid && a.outValid) = false := by rcases hv with hv | hv <;> simp [hv]
      exact hvalid ▸ ends 2
    rw [hbus, hout, Bool.and_self, State.start_true_latch]
    by_cases hpresent : present
    · by_cases hsent : sent
      · rw [readTemp_proceed_transport a hpresent hsent]
        exact ⟨rfl, absurd hpresent, fun _ => rfl, absurd ⟨hpresent, hsent⟩, fun _ _ => rfl⟩
      · rw [began_proceed_transport_of_not_sent (rfl : commandOf 2 = some readScratchpadByte) a s hpresent hsent]
        exact ⟨rfl, absurd hpresent, fun _ => rfl, fun _ => rfl, fun _ h => absurd h hsent⟩
    · rw [began_proceed_transport_of_not_present (rfl : commandOf 2 = some readScratchpadByte) a s hpresent]
      exact ⟨rfl, fun _ => rfl, fun h => absurd h hpresent, fun _ => rfl, fun h => absurd h hpresent⟩
  case setRes =>
    obtain rfl := Host.Outcome.next.inj ((exec_setRes_of_idle hp a).symm.trans h)
    refine ⟨fun hv => hv ▸ ends 3, fun hv => ?_⟩
    rw [hv, State.start_true_latch]
    by_cases hpresent : present
    · by_cases hsent : sent
      · rw [setRes_proceed_transport a hpresent hsent]
        exact ⟨rfl, rfl, absurd hpresent, fun _ => absurd hsent, fun _ _ => rfl⟩
      · rw [began_proceed_transport_of_not_sent (rfl : commandOf 3 = some writeScratchpadByte) a s hpresent hsent]
        exact ⟨rfl, rfl, absurd hpresent, fun _ _ => rfl, fun _ h => absurd h hsent⟩
    · rw [began_proceed_transport_of_not_present (rfl : commandOf 3 = some writeScratchpadByte) a s hpresent]
      exact ⟨rfl, rfl, fun _ => rfl, fun h => absurd h hpresent, fun h => absurd h hpresent⟩

end Sys2Proof.Machine
end

section
/-! With which statuses an operation can end (R207): the table's rows from the runs of the operations, and its entries from
what R208 reports. -/

namespace Sys2Proof.Machine

variable {E : Type}

/-! ### Every end is in the table -/

theorem Waiting.not_idle {s t : State E} {evs : List (Event E)} {p : Phase} (h : Waiting s t evs p) (hp : p ≠ .idle) :
    t.phase ≠ .idle := h.phase ▸ hp

/-- TRIGGER and SET_RES share a row of R207's table. -/
def WriteStatus (st : Status) : Prop := st = .ok ∨ st = .invalidArgument ∨ st = .notFound ∨ st = .transport

/-- The row of READ_TEMP in R207's table. -/
def ReadStatus (st : Status) : Prop :=
  st = .ok ∨ st = .invalidArgument ∨ st = .notFound ∨ st = .invalidCrc ∨ st = .transport ∨ st = .configRange

section
variable {a : ReqArgs} {s t : State} (hp : s.phase = .idle) (hidle : t.phase = .idle)
include hp hidle

theorem trigger_status (h : exec (.trigger a) s = .next t) : WriteStatus t.status := by
  obtain ⟨_, ht, -, -, -, -, -, hinvalid, hvalid⟩ := triggerRuns a s hp
  obtain rfl := Host.Outcome.next.inj (h.symm.trans ht)
  cases hv : a.busValid
  case false => simp [WriteStatus, (hinvalid hv).1.status]
  case true =>
    have hrun := hvalid hv
    split at hrun
    · exact absurd hidle (hrun.not_idle (by decide))
    · simp [WriteStatus, hrun.status]
    · simp [WriteStatus, hrun.status]
    · split at hrun
      · exact absurd hidle (hrun.1.not_idle (by decide))
      · simp [WriteStatus, hrun.status]
      · simp [WriteStatus, hrun.status]

theorem setRes_status (h : exec (.setRes a) s = .next t) : WriteStatus t.status := by
  obtain ⟨_, ht, -, -, -, -, hinvalid, hvalid⟩ := setResRuns a s hp
  obtain rfl := Host.Outcome.next.inj (h.symm.trans ht)
  cases hv : a.busValid
  case false => simp [WriteStatus, (hinvalid hv).1.status]
  case true =>
    have hrun := hvalid hv
    split at hrun
    · exact absurd hidle (hrun.not_idle (by decide))
    · simp [WriteStatus, hrun.status]
    · simp [WriteStatus, hrun.status]
    · split at hrun
      · exact absurd hidle (hrun.1.not_idle (by decide))
      · simp [WriteStatus, hrun.status]
      · split at hrun
        · exact absurd hidle (hrun.1.not_idle (by decide))
        · simp [WriteStatus, hrun.status]
        · simp [WriteStatus, hrun.status]

theorem readTemp_status (h : exec (.readTemp a) s = .next t) : ReadStatus t.status := by
  obtain ⟨_, ht, -, -, -, hinvalid, hvalid⟩ := readTempRuns a s hp
  obtain rfl := Host.Outcome.next.inj (h.symm.trans ht)
  by_cases hv : a.busValid = true ∧ a.outValid = true
  case neg =>
    have hnot : a.busValid = false ∨ a.outValid = false := by simpa [or_iff_not_imp_left] using hv
    simp [ReadStatus, (hinvalid hnot).1.status]
  case pos =>
    have hrun := hvalid hv.1 hv.2
    split at hrun
    · exact absurd hidle (hrun.1.not_idle (by decide))
    · simp [ReadStatus, hrun.1.status]
    · simp [ReadStatus, hrun.1.status]
    · split at hrun
      · exact absurd hidle (hrun.1.not_idle (by decide))
      · simp [ReadStatus, hrun.1.status]
      · split at hrun
        · exact absurd hidle (hrun.1.not_idle (by decide))
        · simp [ReadStatus, hrun.1.status]
        · split at hrun <;> simp [ReadStatus, hrun.1.status]

end

/-! ### Every entry of the table is reached -/

/-- Every status that R208 reports is one with which the request ends in some state. -/
theorem reported_reached (w : ReqWord) {x : Transport} (hready : x.Ready) :
    ∃ s t, s.phase = Phase.idle ∧ exec (decodeRequest w) s = .next t ∧ t.phase = .idle ∧ t.status = reported w x := by
  obtain ⟨t, ht, hidle, hstatus⟩ := firstFailingCheckIsReported w { State.reset with transport := x } rfl hready
  exact ⟨_, t, rfl, ht, hidle, hstatus⟩

/-- Some request with this code, presented in IDLE, ends with this status. -/
def CanEnd (op : BitVec 3) (st : Status) : Prop :=
  ∃ a s t, s.phase = Phase.idle ∧ exec (decodeRequest (reqWord op a)) s = .next t ∧ t.phase = .idle ∧ t.status = st

theorem canEnd_of_reported {op : BitVec 3} {st : Status} (a : ReqArgs) (x : Transport) (hready : x.Ready)
    (h : reported (reqWord op a) x = st) : CanEnd op st :=
  ⟨a, h ▸ reported_reached _ hready⟩

/-- A broadcast with or without handle and output target. -/
def broadcastArgs (valid : Bool) : ReqArgs := ⟨false, 0, valid, valid, 0⟩

theorem startable_broadcastArgs {op : BitVec 3} (hop : op = 1 ∨ op = 2 ∨ op = 3) :
    Startable (reqWord op (broadcastArgs true)) := by
  simp only [Startable, reqOp_reqWord, reqArgs_reqWord]
  exact ⟨hop, rfl, fun _ => rfl⟩

/-- These answers to a bus reset and to a read, and two writes that succeed. -/
def answersOf (r : ResetAnswer) (d : ReadAnswer) : Transport := ⟨[r], [.ok, .ok], [d]⟩

theorem answersOf_ready (r : ResetAnswer) (d : ReadAnswer) : (answersOf r d).Ready := by
  simp [Transport.Ready, answersOf]

/-- Whichever operation it is, it can end with the statuses of check 2 and of the bus reset. -/
theorem canEnd_before_frame {op : BitVec 3} (hop : op = 1 ∨ op = 2 ∨ op = 3) {st : Status}
    (hst : st = .invalidArgument ∨ st = .notFound ∨ st = .transport) : CanEnd op st := by
  have start := startable_broadcastArgs hop
  rcases hst with rfl | rfl | rfl
  · exact canEnd_of_reported (broadcastArgs false) _ (answersOf_ready .absent (.err .known))
      (reported_of_invalid (by simpa using hop) (.inl (by simp [broadcastArgs])) _)
  · exact canEnd_of_reported _ _ (answersOf_ready .absent (.err .known)) (reported_of_absent start rfl)
  · exact canEnd_of_reported _ _ (answersOf_ready (.err .known) (.err .known)) (reported_of_reset_err start rfl)

theorem canEnd_trigger {st : Status} (hst : WriteStatus st) : CanEnd 1 st := by
  rcases hst with rfl | hst
  · exact canEnd_of_reported _ _ (answersOf_ready .present (.err .known))
      (reported_of_trigger (startable_broadcastArgs (.inl rfl)) (reqOp_reqWord 1 _) rfl rfl)
  · exact canEnd_before_frame (.inl rfl) hst

theorem canEnd_setRes {st : Status} (hst : WriteStatus st) : CanEnd 3 st := by
  rcases hst with rfl | hst
  · exact canEnd_of_reported _ _ (answersOf_ready .present (.err .known))
      (reported_of_payload_ok (startable_broadcastArgs (.inr (.inr rfl))) (reqOp_reqWord 3 _) rfl rfl)
  · exact canEnd_before_frame (.inr (.inr rfl)) hst

/-- With a record read, READ_TEMP ends as the two checks of DECODE say. -/
theorem canEnd_readTemp_of_record (sp : Scratchpad) : CanEnd 2 (if crcOk sp = false then .invalidCrc
    else if sp.configuration.getLsbD 7 = true then .configRange else .ok) :=
  canEnd_of_reported _ _ (answersOf_ready .present (.bytes sp))
    (reported_of_record (startable_broadcastArgs (.inr (.inl rfl))) (reqOp_reqWord 2 _) rfl rfl rfl)

/-- A record with this configuration byte and its own CRC. -/
def recordOf (cfg : Byte) : Scratchpad := Scratchpad.withCrc ⟨0, 0, 0, 0, cfg, 0, 0, 0, 0⟩

/-- A record of zeros, whose CRC would be 0. -/
def badRecord : Scratchpad := ⟨0, 0, 0, 0, 0, 0, 0, 0, 1⟩

theorem badRecord_crcOk : crcOk badRecord = false := by
  simp [crcOk, badRecord, Scratchpad.firstEight, crc8, crcByte, crcBits, crcBit]

theorem recordOf_crcOk (cfg : Byte) : crcOk (recordOf cfg) = true := Scratchpad.withCrc_crcOk _

theorem canEnd_readTemp {st : Status} (hst : ReadStatus st) : CanEnd 2 st := by
  rcases hst with rfl | hst | hst | rfl | hst | rfl
  · have h := canEnd_readTemp_of_record (recordOf 0x1F)
    rwa [if_neg (by simp [recordOf_crcOk]), if_neg (by decide)] at h
  · exact canEnd_before_frame (.inr (.inl rfl)) (.inl hst)
  · exact canEnd_before_frame (.inr (.inl rfl)) (.inr (.inl hst))
  · have h := canEnd_readTemp_of_record badRecord
    rwa [if_pos badRecord_crcOk] at h
  · exact canEnd_before_frame (.inr (.inl rfl)) (.inr (.inr hst))
  · have h := canEnd_readTemp_of_record (recordOf 0x9F)
    rwa [if_neg (by simp [recordOf_crcOk]), if_pos (by decide)] at h

theorem decodeRequest_reqWord_one (a : ReqArgs) : decodeRequest (reqWord 1 a) = .trigger a := by simp [decodeRequest]
theorem decodeRequest_reqWord_two (a : ReqArgs) : decodeRequest (reqWord 2 a) = .readTemp a := by simp [decodeRequest]
theorem decodeRequest_reqWord_three (a : ReqArgs) : decodeRequest (reqWord 3 a) = .setRes a := by simp [decodeRequest]

/-- Settles O32: every end of an operation is one of its runs', and every entry of the table is the status R208 reports for
some answers. -/
theorem statusesOfOperations : Obligations.StatusesOfOperations := by
  refine fun st => ⟨⟨?_, fun hst => ?_⟩, ⟨?_, fun hst => ?_⟩, ⟨?_, fun hst => ?_⟩, ⟨?_, fun hst => ?_⟩⟩
  · rintro ⟨a, s, t, hp, h, hidle, rfl⟩
    exact trigger_status hp hidle h
  · simpa only [CanEnd, decodeRequest_reqWord_one] using canEnd_trigger hst
  · rintro ⟨a, s, t, hp, h, hidle, rfl⟩
    exact readTemp_status hp hidle h
  · simpa only [CanEnd, decodeRequest_reqWord_two] using canEnd_readTemp hst
  · rintro ⟨a, s, t, hp, h, hidle, rfl⟩
    exact setRes_status hp hidle h
  · simpa only [CanEnd, decodeRequest_reqWord_three] using canEnd_setRes hst
  · rintro ⟨a, s, t, hp, h, -, rfl⟩
    exact (reserved_end hp h).1
  · have h := (reservedRequestsEndAtOnce (broadcastArgs true) State.reset rfl).1
    exact ⟨_, _, _, rfl, .inl h, rfl, hst.symm⟩

end Sys2Proof.Machine
end

section
/-! One step out of each phase from a state of the invariant (R22), as an exact next state by the answer of the phase's
transaction. -/

namespace Sys2Proof.Machine

/-! ### What the invariant gives the phases -/

/-- An operation in flight has one of the three command bytes (R91). -/
theorem State.Inv.command {s : State} (h : s.Inv) (hp : s.phase ≠ .idle) :
    ∃ cmd : Byte, s.command = some cmd ∧
      (reqOp s.req = 1 ∧ cmd = 0x44 ∨ reqOp s.req = 2 ∧ cmd = 0xBE ∨ reqOp s.req = 3 ∧ cmd = 0x4E) := by
  obtain ⟨cmd, hcmd⟩ := commandOf_of_op (h.startable hp).1
  exact ⟨cmd, hcmd, commandOf_cases hcmd⟩

theorem State.Inv.payloadBytes {s : State} (h : s.Inv) (hp : s.phase = .sendPayload) :
    s.payload.bytes = [0x00, 0x00, packCfg (reqArgs s.req).res] := by
  rw [(h.payload hp).2]
  rfl

/-- Settles O30: the invariant says which frame and which payload are sent, and which operation goes on; the rest is what each
phase's own lemma says. -/
theorem phaseSequences : Obligations.PhaseSequences := by
  refine fun s inv => ⟨advance_idle, fun hp => ?reset, fun hp => ?sendFrame, fun hp => ?sendPayload, fun hp => ?readSp,
    fun hp => ?decode⟩
  case reset =>
    rw [advance_reset hp]
    rcases stepReset_cases s with ⟨hr, ht⟩ | ⟨as, hr, ht⟩ | ⟨e, as, hr, ht⟩ | ⟨as, hr, hc, ht⟩ | ⟨as, cmd, hr, hc, ht⟩ <;>
      rw [hr, ht]
    · simp [State.endWith, State.didReset]
    · simp [State.endTransport, State.endWith, State.didReset]
    · obtain ⟨cmd, hcmd, _⟩ := inv.command (by simp [hp])
      simp [hcmd] at hc
    · exact ⟨cmd, commandOf_cases hc, rfl⟩
  case sendFrame =>
    have hframe := inv.frameBytes hp
    rw [advance_sendFrame hp]
    rcases stepSendFrame_cases s with ⟨hw, ht⟩ | ⟨as, hw, ht⟩ | ⟨e, as, hw, ht⟩ <;> rw [hw, ht]
    · rw [hframe]
      rcases afterFrame_cases ((s.didWrite s.frame .ok as).sendAll s.frame) with
        ⟨hop, hu⟩ | ⟨hop, hu⟩ | ⟨hop, hu⟩ | ⟨hop, _⟩
      · exact .inl ⟨hop, hu⟩
      · exact .inr (.inl ⟨hop, hu⟩)
      · exact .inr (.inr ⟨hop, hu⟩)
      · have started := (inv.startable (by simp [hp])).1
        exact absurd started (by simpa using hop)
    · refine ⟨Config.sentLen s.draws, ?_⟩
      rw [hframe]
      simp [State.endTransport, State.endWith, State.sendPart, State.didWrite]
  case sendPayload =>
    have hbytes := inv.payloadBytes hp
    rw [advance_sendPayload hp, ← hbytes]
    rcases stepSendPayload_cases s with ⟨hw, ht⟩ | ⟨as, hw, ht⟩ | ⟨e, as, hw, ht⟩ <;> rw [hw, ht]
    · simp [State.endWith, State.sendAll, State.withBus, State.didWrite]
    · refine ⟨Config.sentLen s.draws, s.draws, ?_, ?_, fun hth => ?_⟩
      · simp [State.endTransport, State.endWith, State.losePayload, State.sendPart, State.withBus, State.didWrite,
          BusSide.losePayload]
      · exact freeRegisters_payloadLost _ s.draws 0 _
      · exact payloadPrefix_lost hth s.payload _ s.draws
  case readSp =>
    rw [advance_readSp hp]
    rcases stepReadSp_cases s with ⟨hr, ht⟩ | ⟨sp, as, hr, ht⟩ | ⟨e, as, hr, ht⟩ <;> rw [hr, ht]
    · rfl
    · simp [State.endTransport, State.endWith, State.didRead]
  case decode =>
    rw [advance_decode hp, State.stepDecode]
    cases decodeRecord s.sp <;> rfl

end Sys2Proof.Machine
end

section
/-! The scratchpad codec and the resolution configurator (R144 to R148, R155, R157, R158, R181, R182): the rows of a read
configuration byte, masking, and PACK_CFG. -/

namespace Sys2Proof.Machine

/-! ### The rows of a read configuration byte -/

theorem decodeWithIndex_of_mask {sp : Scratchpad} {idx : BitVec 3} {mask : Byte} (h : crc8 sp.firstEight = sp.crc)
    (hm : lsbMask idx = some mask) : decodeWithIndex idx sp = .temp (countOf mask sp) := by
  rw [decodeWithIndex, if_pos ((crcOk_iff sp).mpr h), hm]

theorem decodeWithIndex_of_crc_ne {sp : Scratchpad} (idx : BitVec 3) (h : crc8 sp.firstEight ≠ sp.crc) :
    decodeWithIndex idx sp = .badCrc :=
  if_neg (mt (crcOk_iff sp).mp h)

/-- Settles O49: each of the rows 0 to 3 ends the read with its own index, the fifth with no mask, and the CRC is checked
before. -/
theorem readConfigurationsRun : Obligations.ReadConfigurationsRun := by
  intro s cfg i mask h
  obtain ⟨idx, hexec, hmask⟩ : ∃ idx, exec i s = .next (s.endDecode (decodeWithIndex idx s.sp)) ∧
      lsbMask idx = some mask := by
    rcases h with ⟨rfl, rfl⟩ | ⟨rfl, rfl⟩ | ⟨rfl, rfl⟩ | ⟨rfl, rfl⟩ <;> exact ⟨_, rfl, rfl⟩
  have hfifth : exec (.cfgReadOutOfContract cfg) s = .next (s.endDecode (if crcOk s.sp then .badCfg else .badCrc)) := rfl
  refine ⟨fun hc => ?_, fun hc => ?_⟩
  · rw [hexec, hfifth, decodeWithIndex_of_mask hc hmask, if_pos ((crcOk_iff s.sp).mpr hc)]
    exact ⟨rfl, rfl⟩
  · rw [hexec, hfifth, decodeWithIndex_of_crc_ne idx hc, if_neg (mt (crcOk_iff s.sp).mp hc)]
    exact ⟨rfl, rfl⟩

theorem decodeRecord_eq_badCfg_iff (sp : Scratchpad) :
    decodeRecord sp = .badCfg ↔ crc8 sp.firstEight = sp.crc ∧ sp.configuration.getLsbD 7 = true := by
  rw [← lsbMask_cfgIndex_eq_none_iff]
  by_cases hc : crc8 sp.firstEight = sp.crc
  · cases hm : lsbMask (cfgIndex sp.configuration) with
    | none      => simp [decodeRecord_of_no_mask hc hm, hc]
    | some mask => simp [decodeRecord_of_mask hc hm]
  · simp [decodeRecord_of_crc_ne hc, hc]

/-- Settles O51: the row of SP's byte ends the read as DECODE does, and bit 7 decides whether there is a mask. -/
theorem configurationByteDecidesTheDecode : Obligations.ConfigurationByteDecidesTheDecode := fun s =>
  ⟨exec_decodeConfigRead s, (three_lt_cfgIndex_iff _).trans (three_lt_shift_iff_bit_seven _),
    decodeRecord_eq_badCfg_iff s.sp⟩

/-! ### Masking (R157, R158) -/

/-- What each row of the mask table takes off the low byte (R147): its remainder by `2 ^ k`. -/
theorem maskedLsb_toNat {idx : BitVec 3} {mask : Byte} {k : Nat}
    (h : (idx = 0 ∧ k = 3) ∨ (idx = 1 ∧ k = 2) ∨ (idx = 2 ∧ k = 1) ∨ (idx = 3 ∧ k = 0))
    (hm : lsbMask idx = some mask) (lsb : Byte) : (maskedLsb mask lsb).toNat = lsb.toNat / 2 ^ k * 2 ^ k := by
  rcases h with ⟨rfl, rfl⟩ | ⟨rfl, rfl⟩ | ⟨rfl, rfl⟩ | ⟨rfl, rfl⟩ <;> cases hm <;> revert lsb <;> decide

/-- A count of two bytes is the high one, signed, times 256 and the low one (R28, R148). -/
theorem append_toInt (high low : Byte) : (high ++ low : Count).toInt = high.toInt * 256 + low.toNat := by
  have hhigh := high.isLt
  have hlow := low.isLt
  have hnat : (high ++ low : Count).toNat = high.toNat * 256 + low.toNat := by
    rw [BitVec.toNat_append, Nat.shiftLeft_eq, Nat.mul_comm, ← Nat.two_pow_add_eq_or_of_lt low.isLt]
  simp only [BitVec.toInt_eq_toNat_cond, hnat]
  split_ifs <;> omega

/-- Settles O54: the high byte is a multiple of every masked power, so only the low byte's remainder is taken off. -/
theorem maskingRoundsDown : Obligations.MaskingRoundsDown := by
  intro sp idx mask k h hm
  have hlow := maskedLsb_toNat h hm sp.tempLsb
  have hk : k ≤ 3 := by omega
  rw [countOf, append_toInt, append_toInt, hlow, Int.fdiv_eq_ediv_of_nonneg _ (by positivity)]
  interval_cases k <;> omega

/-- The record with that count's bytes (R59), the 12-bit configuration and its own CRC. -/
def recordOfCount (q : Count) : Scratchpad :=
  Scratchpad.withCrc ⟨q.extractLsb' 0 8, q.extractLsb' 8 8, 0, 0, 0x7F, 0, 0, 0, 0⟩

theorem countOf_recordOfCount (q : Count) : countOf 0x00 (recordOfCount q) = q := by
  have unmasked (b : Byte) : maskedLsb 0x00 b = b := BitVec.and_allOnes
  rw [countOf, unmasked]
  exact high_append_low q

theorem decodeRecord_recordOfCount (q : Count) : decodeRecord (recordOfCount q) = .temp q := by
  have hcrc := (crcOk_iff (recordOfCount q)).mp (Scratchpad.withCrc_crcOk _)
  have hmask : lsbMask (cfgIndex 0x7F) = some 0x00 := by decide
  rw [decodeRecord_of_mask hcrc hmask, countOf_recordOfCount]

/-- Settles O55: `recordOfCount` is decoded at 12 bits, where nothing is masked. -/
theorem everyCountIsReturned : Obligations.EveryCountIsReturned := by
  intro q
  have hlow := BitVec.le_toInt q
  have hhigh := BitVec.toInt_lt (x := q)
  exact ⟨recordOfCount q, decodeRecord_recordOfCount q, high_append_low q, hlow, by omega⟩

/-! ### PACK_CFG (R181, R182) -/

/-- Settles O57: the table and the bits, code by code. -/
theorem packedConfigurations : Obligations.PackedConfigurations := by
  refine ⟨rfl, rfl, rfl, rfl, ?_⟩
  decide

theorem packCfg_bits (res : BitVec 2) : packCfg res >>> 5 = res.setWidth 8 ∧ (packCfg res).getLsbD 7 = false ∧
    cfgIndex (packCfg res) = res.setWidth 3 := by
  revert res; decide

/-- Settles O58: the byte's index is its code, and bit 7 is clear. -/
theorem packAndDecodeAgree : Obligations.PackAndDecodeAgree := by
  intro res sp hcfg
  obtain ⟨hshift, hseven, hindex⟩ := packCfg_bits res
  refine ⟨hshift, hseven, fun hbad => ?_, fun mask hm hcrc => ?_⟩
  · have hset := ((decodeRecord_eq_badCfg_iff sp).mp hbad).2
    rw [hcfg, hseven] at hset
    exact Bool.noConfusion hset
  · exact decodeRecord_of_mask ((crcOk_iff sp).mp hcrc) (by rw [hcfg, hindex, hm])

end Sys2Proof.Machine
end

section
/-! The CRC (R140, R141): it is linear and loses nothing, so every change of one byte changes it, and it is the remainder of a
polynomial division. -/

namespace Sys2Proof.Machine

/-! ### Linear and injective -/

theorem crcBit_zero : crcBit 0 = 0 := rfl

theorem crcBit_xor (a b : Byte) : crcBit (a ^^^ b) = crcBit a ^^^ crcBit b := by
  have hswap (x y z w : Byte) : x ^^^ y ^^^ (z ^^^ w) = x ^^^ z ^^^ (y ^^^ w) := by ac_rfl
  simp only [crcBit, BitVec.getLsbD_xor, BitVec.ushiftRight_xor_distrib]
  cases a.getLsbD 0 <;> cases b.getLsbD 0
  · rfl
  · exact BitVec.xor_assoc _ _ _
  · simp only [Bool.xor_false, if_true, Bool.false_eq_true, if_false]; ac_rfl
  · simp [hswap]

theorem crcBit_eq_zero {c : Byte} (h : crcBit c = 0) : c = 0 := by
  revert c; decide

theorem crcBits_xor (n : Nat) (a b : Byte) : crcBits n (a ^^^ b) = crcBits n a ^^^ crcBits n b := by
  induction n generalizing a b with
  | zero => rfl
  | succ n ih => rw [crcBits, crcBit_xor, ih, crcBits, crcBits]

theorem crcBits_zero (n : Nat) : crcBits n 0 = 0 := by
  induction n with
  | zero => rfl
  | succ n ih => rw [crcBits, crcBit_zero, ih]

theorem crcBits_eq_zero {n : Nat} {c : Byte} (h : crcBits n c = 0) : c = 0 := by
  induction n generalizing c with
  | zero => exact h
  | succ n ih => exact crcBit_eq_zero (ih h)

/-- A byte that is taken loses nothing of the CRC before it and of itself. -/
theorem crcByte_eq_iff (c b c' b' : Byte) : crcByte c b = crcByte c' b' ↔ c ^^^ b = c' ^^^ b' := by
  refine ⟨fun h => ?_, fun h => congrArg (crcBits 8) h⟩
  refine BitVec.xor_eq_zero_iff.mp (crcBits_eq_zero (n := 8) ?_)
  rw [crcBits_xor]
  exact BitVec.xor_eq_zero_iff.mpr h

theorem crcByte_xor (c b c' b' : Byte) : crcByte (c ^^^ c') (b ^^^ b') = crcByte c b ^^^ crcByte c' b' := by
  have hswap : c ^^^ c' ^^^ (b ^^^ b') = c ^^^ b ^^^ (c' ^^^ b') := by ac_rfl
  rw [crcByte, hswap, crcBits_xor, crcByte, crcByte]

theorem crcByte_self (c : Byte) : crcByte c c = 0 := by
  rw [crcByte, BitVec.xor_self]
  exact crcBits_zero 8

/-! ### Of a sequence -/

theorem foldl_crcByte_zipWith {s t : List Byte} (h : s.length = t.length) (c d : Byte) :
    (List.zipWith (· ^^^ ·) s t).foldl crcByte (c ^^^ d) = s.foldl crcByte c ^^^ t.foldl crcByte d := by
  induction s generalizing t c d with
  | nil =>
    obtain rfl := List.eq_nil_of_length_eq_zero h.symm
    rfl
  | cons b bs ih =>
    obtain ⟨b', bs', rfl⟩ := List.exists_cons_of_length_eq_add_one h.symm
    rw [List.zipWith_cons_cons, List.foldl_cons, crcByte_xor, ih (Nat.succ.inj h), List.foldl_cons, List.foldl_cons]

theorem foldl_crcByte_injective (l : List Byte) {c d : Byte} (h : l.foldl crcByte c = l.foldl crcByte d) : c = d := by
  induction l generalizing c d with
  | nil => exact h
  | cons b bs ih => exact BitVec.xor_left_inj b |>.mp ((crcByte_eq_iff c b d b).mp (ih h))

/-- Another byte at one place gives another CRC. -/
theorem foldl_crcByte_modify_ne {l : List Byte} {k : Nat} (hk : k < l.length) {e : Byte} (he : e ≠ 0) (c : Byte) :
    (l.modify k (· ^^^ e)).foldl crcByte c ≠ l.foldl crcByte c := by
  induction l generalizing k c with
  | nil => exact absurd hk (Nat.not_lt_zero k)
  | cons b bs ih =>
    cases k with
    | zero =>
      intro h
      have hbyte := (crcByte_eq_iff c (b ^^^ e) c b).mp (foldl_crcByte_injective bs h)
      rw [← BitVec.xor_assoc] at hbyte
      exact he (BitVec.xor_right_inj (c ^^^ b) |>.mp (hbyte.trans BitVec.xor_zero.symm))
    | succ k => exact ih (Nat.lt_of_succ_lt_succ hk) (crcByte c b)

theorem crc8_append (s : List Byte) (b : Byte) : crc8 (s ++ [b]) = crcByte (crc8 s) b := by
  rw [crc8, List.foldl_append]
  rfl

theorem crc8_append_crc8 (s : List Byte) : crc8 (s ++ [crc8 s]) = 0 := by
  rw [crc8_append, crcByte_self]

/-- A record passes the check exactly when its 9 bytes have CRC 0 (R141). -/
theorem crcOk_iff_crc8_bytes (sp : Scratchpad) : crcOk sp = true ↔ crc8 sp.bytes = 0 := by
  have hself := crcByte_self sp.crc
  rw [crcOk_iff, Scratchpad.bytes, crc8_append, ← hself, crcByte_eq_iff, BitVec.xor_left_inj]

theorem one_shiftLeft_ne_zero {j : Nat} (h : j < 8) : 1#8 <<< j ≠ 0 := by
  interval_cases j <;> decide

/-- Settles O52: the byte that is the CRC clears it, bytes are taken linearly, and a changed bit is a changed byte. -/
theorem crcProperties : Obligations.CrcProperties := by
  refine ⟨crc8_append_crc8, fun s t h => foldl_crcByte_zipWith h 0 0, fun sp sp' k j hok hk hj hbytes => ?_⟩
  have hzero := (crcOk_iff_crc8_bytes sp).mp hok
  rw [← Bool.not_eq_true, crcOk_iff_crc8_bytes, hbytes, ← hzero]
  exact foldl_crcByte_modify_ne hk (one_shiftLeft_ne_zero hj) 0

/-! ### Polynomial division -/

/-- One step of the division: the next bit is brought down, and the divisor is taken off if the `x^8` coefficient is 1. -/
def polyStep (r : Byte) (b : Bool) : Byte := if r.getLsbD 7 ^^ b then (r <<< 1) ^^^ 0x31 else r <<< 1

theorem polyRemainder_eq_foldl (bits : List Bool) : polyRemainder bits = bits.foldl polyStep 0 := rfl

/-- The bit `b` in the place of `x^7` of the reflected CRC. -/
def lowBit (b : Bool) : Byte := (BitVec.ofBool b).setWidth 8

theorem reverse_ushiftRight_one (c : Byte) : (c >>> 1).reverse = c.reverse <<< 1 := by
  apply BitVec.eq_of_getLsbD_eq
  intro i _
  simp only [BitVec.getLsbD_reverse, BitVec.getMsbD_ushiftRight, BitVec.getLsbD_shiftLeft, Bool.and_assoc]

theorem reverse_xor (c d : Byte) : (c ^^^ d).reverse = c.reverse ^^^ d.reverse := by
  apply BitVec.eq_of_getLsbD_eq
  intro i _
  simp only [BitVec.getLsbD_reverse, BitVec.getLsbD_xor, BitVec.getMsbD_xor]

/-- The reflected constant is the divisor read from the other end. -/
theorem reverse_reflected : (0x8C : Byte).reverse = 0x31 := by decide

theorem xor_lowBit_ushiftRight_one (c : Byte) (b : Bool) : (c ^^^ lowBit b) >>> 1 = c >>> 1 := by
  have hlow : lowBit b >>> 1 = 0 := by cases b <;> rfl
  rw [BitVec.ushiftRight_xor_distrib, hlow]
  exact BitVec.xor_zero

theorem xor_lowBit_getLsbD_zero (c : Byte) (b : Bool) :
    (c ^^^ lowBit b).getLsbD 0 = (c.reverse.getLsbD 7 ^^ b) := by
  have hlow : (lowBit b).getLsbD 0 = b := by cases b <;> rfl
  have hreverse : c.reverse.getLsbD 7 = c.getLsbD 0 := by
    rw [BitVec.getLsbD_reverse, BitVec.getMsbD_eq_getLsbD]
    rfl
  rw [BitVec.getLsbD_xor, hlow, hreverse]

/-- One bit of the reflected CRC is one step of the division, read from the other end. -/
theorem crcBit_reverse (c : Byte) (b : Bool) : (crcBit (c ^^^ lowBit b)).reverse = polyStep c.reverse b := by
  rw [crcBit, polyStep, xor_lowBit_getLsbD_zero, xor_lowBit_ushiftRight_one]
  split_ifs
  · rw [reverse_xor, reverse_ushiftRight_one, reverse_reflected]
  · exact reverse_ushiftRight_one c

/-- The lowest bit of a byte is brought in first; the others move down. -/
theorem crcBit_xor_byte (c b : Byte) : crcBit (c ^^^ b) = crcBit (c ^^^ lowBit (b.getLsbD 0)) ^^^ (b >>> 1) := by
  have hbyte : crcBit b = crcBit (lowBit (b.getLsbD 0)) ^^^ (b >>> 1) := by
    cases hlow : b.getLsbD 0
    · have hzero : crcBit (lowBit false) = 0 := rfl
      rw [hzero, crcBit, if_neg (Bool.eq_false_iff.mp hlow)]
      exact BitVec.zero_xor.symm
    · have hone : crcBit (lowBit true) = 0x8C := rfl
      rw [hone, crcBit, if_pos hlow, BitVec.xor_comm]
  rw [crcBit_xor, hbyte, crcBit_xor, BitVec.xor_assoc]

/-- Taking the `n` low bits of a byte that has no others is `n` steps of the division by its bits. -/
theorem crcBits_reverse (n : Nat) {b : Byte} (hb : ∀ i, n ≤ i → b.getLsbD i = false) (c : Byte) :
    (crcBits n (c ^^^ b)).reverse = ((List.range n).map fun i => b.getLsbD i).foldl polyStep c.reverse := by
  induction n generalizing b c with
  | zero =>
    have hzero : b = 0 := BitVec.eq_of_getLsbD_eq fun i _ => by simp [hb i (Nat.zero_le i)]
    simp [hzero, crcBits]
  | succ n ih =>
    have hshift (i : Nat) : (b >>> 1).getLsbD i = b.getLsbD (i + 1) := by
      rw [BitVec.getLsbD_ushiftRight, Nat.add_comm]
    rw [crcBits, crcBit_xor_byte, ih (fun i hi => (hshift i).trans (hb _ (by omega))), crcBit_reverse,
      List.range_succ_eq_map, List.map_cons, List.foldl_cons, List.map_map]
    simp only [hshift, Function.comp_def, Nat.succ_eq_add_one]

theorem foldl_crcByte_reverse (s : List Byte) (c : Byte) :
    (s.foldl crcByte c).reverse = (crcBitsOf s).foldl polyStep c.reverse := by
  induction s generalizing c with
  | nil => rfl
  | cons b bs ih =>
    have hbyte : (crcByte c b).reverse = ((List.range 8).map fun i => b.getLsbD i).foldl polyStep c.reverse :=
      crcBits_reverse 8 (fun i hi => BitVec.getLsbD_of_ge b i hi) c
    rw [List.foldl_cons, ih, hbyte, crcBitsOf, crcBitsOf, List.flatMap_cons, List.foldl_append]

/-- Settles O53: byte by byte and bit by bit, from the seed 0. -/
theorem crcIsThePolynomialRemainder : Obligations.CrcIsThePolynomialRemainder := by
  intro s
  rw [polyRemainder_eq_foldl]
  exact foldl_crcByte_reverse s 0

end Sys2Proof.Machine
end

section
/-! The binary32 view of a count (R149, R150): the pattern by its three fields, and the value those stand for. -/

namespace Sys2Proof.Machine

/-! ### The highest 1 of a magnitude -/

theorem topBit_bounds {n m : Nat} (hm : m ≠ 0) (hlt : m < 2 ^ n) :
    2 ^ topBit n m ≤ m ∧ m < 2 ^ (topBit n m + 1) ∧ topBit n m < n := by
  induction n with
  | zero => omega
  | succ n ih =>
    rw [topBit]
    split_ifs with htop
    · exact ⟨Nat.ge_two_pow_of_testBit htop, hlt, n.lt_succ_self⟩
    · have hsmall : m < 2 ^ n := by
        rw [Nat.testBit_eq_decide_div_mod_eq, decide_eq_true_iff] at htop
        have hquot : m / 2 ^ n < 2 := Nat.div_lt_of_lt_mul (by rwa [← Nat.pow_succ])
        have hzero : m / 2 ^ n = 0 := by
          generalize m / 2 ^ n = k at htop hquot
          omega
        exact (Nat.div_eq_zero_iff.mp hzero).resolve_left (by positivity)
      obtain ⟨hlow, hhigh, hn⟩ := ih hsmall
      exact ⟨hlow, hhigh, by omega⟩

/-! ### A binary32 pattern by its fields -/

/-- Sign, biased exponent and fraction, in the order of their places. -/
def binary32 (sign : Bool) (expo frac : Nat) : BitVec 32 :=
  BitVec.ofBool sign ++ BitVec.ofNat 8 expo ++ BitVec.ofNat 23 frac

section
variable (sign : Bool) {expo frac : Nat} (hexpo : expo < 256) (hfrac : frac < 2 ^ 23)
include hexpo hfrac

theorem binary32_toNat : (binary32 sign expo frac).toNat = sign.toNat * 2 ^ 31 + expo * 2 ^ 23 + frac := by
  have happend {n m : Nat} (x : BitVec n) (y : BitVec m) : (x ++ y).toNat = x.toNat * 2 ^ m + y.toNat := by
    rw [BitVec.toNat_append, Nat.shiftLeft_eq, Nat.mul_comm, ← Nat.two_pow_add_eq_or_of_lt y.isLt]
  have hsign : (BitVec.ofBool sign).toNat = sign.toNat := BitVec.toNat_ofBool sign
  calc (binary32 sign expo frac).toNat
      = ((BitVec.ofBool sign).toNat * 2 ^ 8 + expo % 2 ^ 8) * 2 ^ 23 + frac % 2 ^ 23 := by
        unfold binary32
        rw [happend, happend, BitVec.toNat_ofNat, BitVec.toNat_ofNat]
    _ = sign.toNat * 2 ^ 31 + expo * 2 ^ 23 + frac := by omega

theorem binary32_frac_toNat : ((binary32 sign expo frac).extractLsb' 0 23).toNat = frac := by
  rw [BitVec.extractLsb'_toNat, binary32_toNat sign hexpo hfrac, Nat.shiftRight_eq_div_pow]
  omega

theorem binary32_expo_toNat : ((binary32 sign expo frac).extractLsb' 23 8).toNat = expo := by
  rw [BitVec.extractLsb'_toNat, binary32_toNat sign hexpo hfrac, Nat.shiftRight_eq_div_pow]
  omega

theorem binary32_sign : (binary32 sign expo frac).getLsbD 31 = sign := by
  rw [BitVec.getLsbD, binary32_toNat sign hexpo hfrac, Nat.testBit_eq_decide_div_mod_eq]
  cases sign <;> simp <;> omega

/-- With a positive exponent field the pattern is no zero and no subnormal. -/
theorem f32Value_binary32 (hpos : 0 < expo) :
    f32Value (binary32 sign expo frac) =
      (if sign = true then -1 else 1) * (1 + (frac : Rat) / 2 ^ 23) * (2 : Rat) ^ ((expo : Int) - 127) := by
  have hne : (binary32 sign expo frac).extractLsb' 0 31 ≠ 0 := by
    intro h
    have hnat := congrArg BitVec.toNat h
    rw [BitVec.extractLsb'_toNat, binary32_toNat sign hexpo hfrac, Nat.shiftRight_eq_div_pow] at hnat
    have : (0 : BitVec 31).toNat = 0 := rfl
    omega
  simp only [f32Value, if_neg hne, binary32_frac_toNat sign hexpo hfrac, binary32_expo_toNat sign hexpo hfrac,
    binary32_sign sign hexpo hfrac]

end

/-! ### The pattern of a count -/

theorem natAbs_toInt_le (q : Count) : q.toInt.natAbs ≤ 2 ^ 15 := by
  have := BitVec.le_toInt q
  have := BitVec.toInt_lt (x := q)
  omega

/-- The pattern of a count that is not 0: `p` is the position of the magnitude's highest 1. -/
theorem f32OfCount_of_ne_zero {q : Count} (hq : q ≠ 0) : ∃ p, p < 16 ∧ 2 ^ p ≤ q.toInt.natAbs ∧
    q.toInt.natAbs < 2 ^ (p + 1) ∧
    f32OfCount q = binary32 q.msb (p + 123) ((q.toInt.natAbs - 2 ^ p) * 2 ^ (23 - p)) := by
  have hmag : q.toInt.natAbs ≠ 0 := by
    rw [Int.natAbs_ne_zero]
    exact fun h => hq (BitVec.eq_of_toInt_eq (h.trans BitVec.toInt_zero.symm))
  have hle := natAbs_toInt_le q
  obtain ⟨hlow, hhigh, hp⟩ := topBit_bounds (n := 16) hmag (by omega)
  exact ⟨_, hp, hlow, hhigh, if_neg hmag⟩

theorem fraction_lt {m p : Nat} (hp : p < 16) (hhigh : m < 2 ^ (p + 1)) : (m - 2 ^ p) * 2 ^ (23 - p) < 2 ^ 23 := by
  have hrest : m - 2 ^ p < 2 ^ p := by rw [Nat.pow_succ] at hhigh; omega
  calc (m - 2 ^ p) * 2 ^ (23 - p) < 2 ^ p * 2 ^ (23 - p) := Nat.mul_lt_mul_of_pos_right hrest (by positivity)
    _ = 2 ^ 23 := by rw [← Nat.pow_add, Nat.add_sub_cancel' (by omega)]

/-- One and the fraction field, times the power of the exponent field, is the magnitude's sixteenth. -/
theorem significand_mul_pow {m p : Nat} (hp : p < 16) (hlow : 2 ^ p ≤ m) :
    (1 + (((m - 2 ^ p) * 2 ^ (23 - p) : Nat) : Rat) / 2 ^ 23) * (2 : Rat) ^ (((p + 123 : Nat) : Int) - 127) =
      (m : Rat) / 16 := by
  have hfrac : (2 : Rat) ^ (23 - p) = 2 ^ 23 / 2 ^ p := by
    rw [pow_sub₀ _ (by norm_num) (by omega), div_eq_mul_inv]
  have hexpo : (2 : Rat) ^ (((p + 123 : Nat) : Int) - 127) = 2 ^ p / 16 := by
    have : ((p + 123 : Nat) : Int) - 127 = (p : Int) - 4 := by omega
    rw [this, zpow_sub₀ (by norm_num), zpow_natCast]
    norm_num
  have hpow : (2 : Rat) ^ p ≠ 0 := by positivity
  rw [hexpo]
  push_cast [Nat.cast_sub hlow, hfrac]
  field_simp
  ring

theorem toInt_eq_sign_mul_natAbs (q : Count) :
    (q.toInt : Rat) = (if q.msb = true then -1 else 1) * (q.toInt.natAbs : Rat) := by
  have hsign : q.toInt = (if q.msb = true then -1 else 1) * (q.toInt.natAbs : Int) := by
    rw [BitVec.msb_eq_toInt]
    simp only [decide_eq_true_iff]
    split_ifs <;> omega
  have hcast := congrArg (Int.cast : Int → Rat) hsign
  push_cast at hcast
  split_ifs at hcast ⊢ <;> simpa using hcast

theorem f32OfCount_zero : f32OfCount 0 = 0 := by decide

theorem f32Value_zero : f32Value 0 = 0 := by simp [f32Value]

theorem f32Value_f32OfCount (q : Count) : f32Value (f32OfCount q) = (q.toInt : Rat) / 16 := by
  by_cases hq : q = 0
  · have hzero : (0 : Count).toInt = 0 := rfl
    rw [hq, f32OfCount_zero, f32Value_zero, hzero, Int.cast_zero, zero_div]
  · obtain ⟨p, hp, hlow, hhigh, hpattern⟩ := f32OfCount_of_ne_zero hq
    rw [hpattern, f32Value_binary32 q.msb (by omega) (fraction_lt hp hhigh) (by omega), mul_assoc,
      significand_mul_pow hp hlow, toInt_eq_sign_mul_natAbs q, mul_div_assoc]

/-- The exponent field is 0 for the count 0 alone, and never 255. -/
theorem f32OfCount_expo (q : Count) : (f32OfCount q).extractLsb' 23 8 ≠ 255 ∧
    ((f32OfCount q).extractLsb' 23 8 = 0 ↔ q = 0) := by
  by_cases hq : q = 0
  · rw [hq, f32OfCount_zero]
    decide
  · obtain ⟨p, hp, _, hhigh, hpattern⟩ := f32OfCount_of_ne_zero hq
    have hexpo : ((f32OfCount q).extractLsb' 23 8).toNat = p + 123 :=
      hpattern ▸ binary32_expo_toNat q.msb (by omega) (fraction_lt hp hhigh)
    have hne {b : Byte} (hb : b.toNat ≠ p + 123) : (f32OfCount q).extractLsb' 23 8 ≠ b := fun h => hb (h ▸ hexpo)
    have hmax : (255 : Byte).toNat = 255 := rfl
    have hmin : (0 : Byte).toNat = 0 := rfl
    exact ⟨hne (by omega), iff_of_false (hne (by omega)) hq⟩

/-- Settles O56: the value by the fields of the pattern, which are those of a normal number unless the count is 0; and the
two views are maps of TEMP_Q4. -/
theorem binaryViewIsExact : Obligations.BinaryViewIsExact :=
  ⟨fun q => ⟨f32Value_f32OfCount q, f32OfCount_expo q⟩, f32OfCount_zero, fun s =>
    ⟨s.tempC_eq_none_iff, s.tempF32_eq_none_iff, fun _ h => ⟨congrArg (Option.map tempCOf) h,
      congrArg (Option.map f32OfCount) h⟩⟩⟩

end Sys2Proof.Machine
end
